-- ==== Sys2Proof/Word.lean ====
section
/-!
DEFINITION. Word.lean: the widths the spec uses. `u8`, `u16` and `u32` of 00_scope.md rule R8 are bit
vectors: every value of the block is unsigned, and no operation sign-extends.
-/

namespace Sys2Proof

/-- `u8` (R8): a byte of a frame, of TXBUF or of RXBUF. -/
abbrev Byte := BitVec 8

/-- `u16` (R8): a register word on the wire, the CRC accumulator, an entry of VAL or RDAT. -/
abbrev Half := BitVec 16

/-- `u32` (R8): a register as the host sees it, and the command word. -/
abbrev Word := BitVec 32

end Sys2Proof
end

