-- ==== Sys2Proof/Config.lean ====
section
/-!
DEFINITION. Config.lean: the implementation parameters of 00_scope.md rule R7. "Fixed" parameters are
numbers; the one OPEN parameter, CMD_LATENCY, is a constant with no body.
-/

namespace Sys2Proof.Config

/-- `CRC_INIT` (R7, R91). -/
abbrev crcInit : Half := 0xFFFF#16

/-- `CRC_POLY` (R7, R90). -/
abbrev crcPoly : Half := 0xA001#16

/-- `MAX_SLAVE_ADDR` (R7). -/
abbrev maxSlaveAddr : Nat := 62

/-- `MIN_QTY` (R7). -/
abbrev minQty : Nat := 1

/-- `MAX_QTY` (R7). -/
abbrev maxQty : Nat := 30

/-- `ECHO_LEN` (R7): the length of a 0x06 or 0x10 response. -/
abbrev echoLen : Nat := 8

/-- `RD_HDR_LEN` (R7): the length of the header of a 0x03 response. -/
abbrev rdHdrLen : Nat := 3

/-- `BUF_BYTES` (R7): the number of entries of TXBUF and of RXBUF. -/
abbrev bufBytes : Nat := 260

/-- `N_VAL` (R7): the number of entries of VAL. -/
abbrev nVal : Nat := 30

/-- `N_RDAT` (R7): the number of entries of RDAT. -/
abbrev nRdat : Nat := 30

/-- `CMD_LATENCY` (R7, R83), OPEN: how many host cycles pass between the acceptance of the n-th command
and its completion. A free value: finite, any number, different from command to command. It has no body,
so no proof can see a value of it (assumption log entry 2, DESIGN CHOICE, safe). -/
opaque cmdLatency : Nat → Nat

end Sys2Proof.Config
end

