-- ==== Sys2Proof/Syntax.lean ====
section
/-!
DEFINITION. Syntax.lean: the command set, version 1 (00_scope.md rule R2; 30_encoding.md rule R64).
One constructor per row of spec/opcode_table.json. No command carries an operand field (R63): every operand
is read from a register when the command completes.
-/

namespace Sys2Proof

/-- The 14 commands of R64. -/
inductive Instr where
  /-- NOP, OP 0x00 (R85). -/
  | nop
  /-- CRC_INIT, OP 0x01 (R93). -/
  | crcInit
  /-- CRC_BYTE, OP 0x02 (R94). -/
  | crcByte
  /-- CRC_TX, OP 0x03 (R95). -/
  | crcTx
  /-- CRC_RX, OP 0x04 (R96). -/
  | crcRx
  /-- SPLIT, OP 0x10 (R103). -/
  | split
  /-- COMBINE, OP 0x11 (R104). -/
  | combine
  /-- SER_APPEND, OP 0x20 (R108). -/
  | serAppend
  /-- SER_RD, OP 0x21 (R110). -/
  | serRd
  /-- SER_WR1, OP 0x22 (R111). -/
  | serWr1
  /-- SER_WRN, OP 0x23 (R112). -/
  | serWrn
  /-- PARSE, OP 0x30 (R124). -/
  | parse
  /-- PARSE_RAW, OP 0x31 (R130). -/
  | parseRaw
  /-- RX_CLEAR, OP 0x3F (R86). -/
  | rxClear
deriving DecidableEq, Repr

end Sys2Proof
end

