-- ==== Sys2Proof/WellFormed.lean ====
section
/-!
DEFINITION. WellFormed.lean: what makes a command word legal (30_encoding.md rules R62, R64 and R65), written
apart from the decoder so that the two can be held against each other. A term of `Instr` has no operand
(R63), so there is nothing in it that could be ill-formed: the checks are about the 32-bit word.
-/

namespace Sys2Proof

/-- The 14 OP values of R64, in the table's order. -/
def opCodes : List Byte :=
  [0x00#8, 0x01#8, 0x02#8, 0x03#8, 0x04#8, 0x10#8, 0x11#8, 0x20#8, 0x21#8, 0x22#8, 0x23#8, 0x30#8, 0x31#8, 0x3F#8]

/-- RSV, bits [31:8] of the word, must be 0 (R62). -/
def rsvIsZero (w : Word) : Bool := w.toNat < 256

/-- OP, bits [7:0] of the word, is one of the 14 (R64). -/
def opIsListed (w : Word) : Bool := opCodes.contains (w.setWidth 8)

/-- The word is one of the 14 command words (R65). -/
def wordWellFormed (w : Word) : Bool := rsvIsZero w && opIsListed w

/-- Every command is well-formed: it has no operand field (R63). -/
def Instr.wellFormed (_i : Instr) : Bool := true

end Sys2Proof
end

