-- ==== Sys2Proof/Decode.lean ====
section
/-!
DEFINITION. Decode.lean: the decoder of a command word (30_encoding.md rules R62, R64, R65, R78), total on
all 2^32 words, and after it the encoder.
-/

namespace Sys2Proof

/-- What a word decodes to (R78): one of the 14 commands, IllegalCommand(RESERVED) or IllegalCommand(OPCODE). -/
inductive Decoded where
  | command (i : Instr)
  | reserved
  | opcode
deriving DecidableEq, Repr

/-- OP = w[7:0] (R62). -/
def opOf (w : Word) : Byte := w.extractLsb' 0 8

/-- RSV = w[31:8] (R62). -/
def rsvOf (w : Word) : BitVec 24 := w.extractLsb' 8 24

/-- The opcode map (R64). -/
def opcodeMap : List (Byte × Instr) :=
  [ (0x00#8, .nop), (0x01#8, .crcInit), (0x02#8, .crcByte), (0x03#8, .crcTx), (0x04#8, .crcRx),
    (0x10#8, .split), (0x11#8, .combine),
    (0x20#8, .serAppend), (0x21#8, .serRd), (0x22#8, .serWr1), (0x23#8, .serWrn),
    (0x30#8, .parse), (0x31#8, .parseRaw), (0x3F#8, .rxClear) ]

/-- The command whose OP is `op`, if there is one (R64). -/
def commandOf (op : Byte) : Option Instr := opcodeMap.lookup op

/-- R65: RESERVED is checked first, then OPCODE. -/
def decode (w : Word) : Decoded :=
  if rsvOf w ≠ 0#24 then .reserved
  else
    match commandOf (opOf w) with
    | some i => .command i
    | none => .opcode

/-- The OP of a command, from the table of R64. -/
def encodeOp : Instr → Byte
  | .nop => 0x00#8
  | .crcInit => 0x01#8
  | .crcByte => 0x02#8
  | .crcTx => 0x03#8
  | .crcRx => 0x04#8
  | .split => 0x10#8
  | .combine => 0x11#8
  | .serAppend => 0x20#8
  | .serRd => 0x21#8
  | .serWr1 => 0x22#8
  | .serWrn => 0x23#8
  | .parse => 0x30#8
  | .parseRaw => 0x31#8
  | .rxClear => 0x3F#8

/-- The word of a command: RSV = 0 above its OP (R62; R76: "exactly the word 0x000000OP"). -/
def encode (i : Instr) : Word := 0#24 ++ encodeOp i

/-- The command the decoder reads from a word of `nbits` bits whose value is `w`. A command is one 32-bit
word (R61), so a value that has a bit above bit 31 is no command. -/
def decodeTableWord (nbits w : Nat) : Option Instr :=
  if w % 2 ^ nbits < 2 ^ 32 then
    match decode (BitVec.ofNat 32 (w % 2 ^ nbits)) with
    | .command i => some i
    | .reserved => none
    | .opcode => none
  else none

end Sys2Proof
end

