-- ==== Sys2Proof/Machine/State.lean ====
section
/-!
DEFINITION. Machine/State.lean: the state of the block (10_state.md rules R15 to R41) as plain data, its value
after reset (R41, R160), and the reasons a step can stop.
-/

namespace Sys2Proof.Machine

/-- ENG (R21). `exec wait` is EXEC; `wait` is what is left of the command's open latency, counted in host
cycles (R83; log entry 2), and `exec 0` takes the completion step next. -/
inductive Engine where
  | idle
  | exec (wait : Nat)
deriving DecidableEq, Repr

/-- The errors a command can report, one per row of R142. -/
inductive CmdError where
  /-- ConfigurationError(DISCONNECTED): CTRL.EN = 0. -/
  | cfgDisconnected
  /-- ConfigurationError(ADDR): SLAVE.ADDR > 62. -/
  | cfgAddr
  /-- ConfigurationError(COUNT): the quantity is outside 1..30. -/
  | cfgCount
  /-- ConfigurationError(RANGE): a narrow operand has upper bits set (R143). -/
  | cfgRange
  /-- ConfigurationError(LEN): TXLEN is out of the command's range. -/
  | cfgLen
  /-- ConfigurationError(NOEXP): EXP.FC = 0. -/
  | cfgNoExp
  /-- CommunicationError(SHORT): fewer bytes in RXBUF than the frame needs. -/
  | commShort
  /-- ProtocolError(ADDR): the frame's address is not EXP.ADDR. -/
  | protoAddr
  /-- ProtocolError(FC): the frame's function code is not EXP.FC. -/
  | protoFc
  /-- ProtocolError(BCNT): the byte count is not twice EXP.QTY. -/
  | protoBcnt
  /-- ProtocolError(CRC): the computed CRC is not the received one. -/
  | protoCrc
  /-- IllegalCommand(OPCODE): RSV = 0 and OP is not in the map of R64. -/
  | illegalOpcode
  /-- IllegalCommand(RESERVED): RSV ≠ 0. -/
  | illegalReserved
deriving DecidableEq, Repr

/-- The function codes EXP.FC can hold: "EXP.FC only ever holds 0x00, 0x03, 0x06 or 0x10" (R31). -/
inductive ExpFc where
  /-- 0x00, no expectation. -/
  | none
  /-- 0x03, read holding registers. -/
  | read
  /-- 0x06, write single register. -/
  | write1
  /-- 0x10, write multiple registers. -/
  | writeN
deriving DecidableEq, Repr

/-- CTRL (R22). -/
structure Ctrl where
  en    : Bool
  irqen : Bool
deriving DecidableEq, Repr

/-- STATUS (R23) but for BUSY, which reads ENG (R21; log entry 5). `error` is ERRKIND and ERRCAUSE together
(R141, R142; log entry 6). -/
structure Status where
  done  : Bool
  crcok : Bool
  haz   : Bool
  rxovf : Bool
  error : Option CmdError
deriving DecidableEq, Repr

/-- EXP (R31). -/
structure Exp where
  addr : Byte
  fc   : ExpFc
  qty  : BitVec 5
deriving DecidableEq, Repr

/-- RXHDR (R32). -/
structure RxHdr where
  addr : Byte
  fc   : Byte
deriving DecidableEq, Repr

/-- RXCRC (R33). -/
structure RxCrc where
  /-- RXCRC.CALC. -/
  computed : Half
  /-- RXCRC.RECV. -/
  received : Half
deriving DecidableEq, Repr

/-- One host access as the ports of R16 carry it: haddr, hsize, hwrite, hwdata. -/
structure Access where
  haddr  : BitVec 13
  hsize  : BitVec 3
  hwrite : Bool
  hwdata : Word
deriving DecidableEq, Repr

/-- One cycle of the outside world (R16): the level of `rst`, and the access the host performs, if any. -/
structure PortIn where
  rst    : Bool
  access : Option Access
deriving DecidableEq, Repr

/-- The block's answer to one host access (R16, R47): hrdata and herr of a read, herr of a write. -/
inductive BusResponse where
  | read (hrdata : Word) (herr : Bool)
  | write (herr : Bool)
deriving DecidableEq, Repr

/-- The places of the register window that R52 names. A number that is not in an array's range does not occur. -/
inductive Reg where
  | ctrl
  | status
  | cmd
  | slave
  | arg0
  | arg1
  | res0
  | res1
  | crc
  | txlen
  | rxlen
  | rxdata
  | rxneed
  | exp
  | rxhdr
  | rxcrc
  | pllen
  | val (i : Fin 30)
  | rdat (i : Fin 30)
  | txbuf (i : Fin 260)
  | rxbuf (i : Fin 260)
  | reserved
deriving DecidableEq, Repr

/-- The whole machine. The first fields are the block's state, in the order of 10_state.md; `inputs`, `resp`
and `draws` are the model's own (log entries 1, 8 and 2). -/
structure State where
  /-- ENG (R21). -/
  eng    : Engine
  /-- CMDR (R21): the last accepted command word. -/
  cmdr   : Word
  /-- CTRL (R22). -/
  ctrl   : Ctrl
  /-- STATUS (R23). -/
  status : Status
  /-- SLAVE.ADDR (R25). -/
  slave  : Byte
  /-- ARG0 (R17). -/
  arg0   : Word
  /-- ARG1 (R17). -/
  arg1   : Word
  /-- RES0 (R18). -/
  res0   : Word
  /-- RES1 (R18). -/
  res1   : Word
  /-- CRC.ACC (R26). -/
  crc    : Half
  /-- TXLEN.LEN (R27). -/
  txlen  : BitVec 9
  /-- RXLEN.LEN (R28). -/
  rxlen  : BitVec 9
  /-- EXP (R31). -/
  exp    : Exp
  /-- RXHDR (R32). -/
  rxhdr  : RxHdr
  /-- RXCRC (R33). -/
  rxcrc  : RxCrc
  /-- PLLEN.LEN (R34). -/
  pllen  : BitVec 9
  /-- VAL[0..29] (R35). -/
  val    : Vector Half 30
  /-- RDAT[0..29] (R36). -/
  rdat   : Vector Half 30
  /-- TXBUF[0..259] (R37). -/
  txbuf  : Vector Byte 260
  /-- RXBUF[0..259] (R38). -/
  rxbuf  : Vector Byte 260
  /-- The coming cycles of the outside world, oldest first; when the list is empty the host is idle. -/
  inputs : List PortIn
  /-- The answer to the last host access (hrdata, herr); none before the first. -/
  resp   : Option BusResponse
  /-- How many command latencies have been drawn: the index of the next free value. -/
  draws  : Nat
deriving DecidableEq, Repr

/-- The machine right after reset (R41, R160; `inputs`, `resp` and `draws`: log entries 1, 8 and 2). -/
def State.reset : State where
  eng    := .idle
  cmdr   := 0#32
  ctrl   := { en := false, irqen := false }
  status := { done := false, crcok := false, haz := false, rxovf := false, error := none }
  slave  := 0#8
  arg0   := 0#32
  arg1   := 0#32
  res0   := 0#32
  res1   := 0#32
  crc    := 0xFFFF#16
  txlen  := 0#9
  rxlen  := 0#9
  exp    := { addr := 0#8, fc := .none, qty := 0#5 }
  rxhdr  := { addr := 0#8, fc := 0#8 }
  rxcrc  := { computed := 0#16, received := 0#16 }
  pllen  := 0#9
  val    := Vector.replicate 30 0#16
  rdat   := Vector.replicate 30 0#16
  txbuf  := Vector.replicate 260 0#8
  rxbuf  := Vector.replicate 260 0#8
  inputs := []
  resp   := none
  draws  := 0

/-- The reasons the machine stops with a fault: none. A failing command is a next state with an error record
(R140), an illegal access is a next state with herr = 1 (R47, R148), and no rule stops the block (log entry 12). -/
inductive Fault where
deriving DecidableEq, Repr

/-- The reasons a step has no meaning. -/
inductive Refusal where
  /-- Raised by an arm of `exec` whose command has no meaning in this model yet; safe. No arm raises it now. -/
  | notModelled (mnemonic : String)
deriving DecidableEq, Repr

end Sys2Proof.Machine
end

