-- ==== Sys2Proof/Machine/Ops.lean ====
section
/-!
DEFINITION. Machine/Ops.lean: the shared operations. Byte and word order on the wire, stores into an array, the
CRC functions, the word codec, the serializer's function, the first-error rule, and the end of every command: a
completion with or without an error record (the block's form of taking an exception), with the acknowledgement that
is its form of a return.
-/

namespace Sys2Proof.Machine

/-! ## Byte and word order (20_memory.md R43 to R45) -/

/-- w[15:8]. -/
def hiByte (w : Half) : Byte := w.extractLsb' 8 8

/-- w[7:0]. -/
def loByte (w : Half) : Byte := w.extractLsb' 0 8

/-- The two wire bytes of a 16-bit field, high byte first (R43). -/
def beBytes (w : Half) : List Byte := [hiByte w, loByte w]

/-- The 16-bit value whose high byte is `hi` and whose low byte is `lo` (R8, R43). -/
def beHalf (hi lo : Byte) : Half := hi ++ lo

/-- The two wire bytes of a CRC, low byte first (R44). -/
def crcBytes (c : Half) : List Byte := [loByte c, hiByte c]

/-! ## Arrays and byte sequences -/

/-- Stores a sequence into an array from entry `k` on; entries outside the array do not exist. -/
def storeAt {α : Type} {n : Nat} (v : Vector α n) (k : Nat) : List α → Vector α n
  | [] => v
  | x :: xs => storeAt (v.setIfInBounds k x) (k + 1) xs

/-- `ARR[0..n-1]` as a sequence (R9, R12). -/
def firstEntries {α : Type} {m : Nat} (v : Vector α m) (n : Nat) : List α := v.toList.take n

/-- `f[i]` of a byte sequence. Every use lies inside the sequence in every reachable state (log entry 11). -/
def byteAt (f : List Byte) (i : Nat) : Byte := f.getD i 0#8

/-! ## CRC-16/Modbus (41_crc.md R90, R91) -/

/-- One of the eight iterations of R90. -/
def crcShift (c : Half) : Half :=
  if c.getLsbD 0 then (c >>> 1) ^^^ Config.crcPoly else c >>> 1

/-- `n` iterations of R90's loop. -/
def crcShifts : Nat → Half → Half
  | 0, c => c
  | n + 1, c => crcShifts n (crcShift c)

/-- crc_step (R90): the byte is XORed into the low byte, then eight iterations. -/
def crcStep (c : Half) (b : Byte) : Half := crcShifts 8 (c ^^^ b.setWidth 16)

/-- A CRC continued from `c` over a byte sequence. -/
def crcFrom (c : Half) (bs : List Byte) : Half := bs.foldl crcStep c

/-- crc16 (R91): from CRC_INIT, no final XOR. -/
def crc16 (bs : List Byte) : Half := crcFrom Config.crcInit bs

/-! ## Word codec (42_word_codec.md R100, R101) -/

/-- split_u32_be (R100): (x[31:16], x[15:0]). -/
def splitU32 (x : Word) : Half × Half := (x.extractLsb' 16 16, x.extractLsb' 0 16)

/-- combine_u32_be (R101): {hi, lo}. -/
def combineU32 (hi lo : Half) : Word := hi ++ lo

/-! ## Serializer (43_serializer.md R107) -/

/-- serialize (R107): the body and its CRC, low byte first. -/
def serialize (body : List Byte) : List Byte := body ++ crcBytes (crc16 body)

/-! ## Errors and completion (40_command_cycle.md R82; 60_exceptions.md R144, R145, R147) -/

/-- The first failing check of a list, each check with the error it raises (R144: "the first check that fails wins"). -/
def firstError : List (Bool × CmdError) → Option CmdError
  | [] => none
  | (failed, e) :: rest => if failed then some e else firstError rest

/-- The end of the completion step (R82): the error record (none when the command completed), DONE ← 1,
BUSY ← 0, ENG ← IDLE. -/
def finish (record : Option CmdError) (s : State) : State :=
  { s with status := { s.status with done := true, error := record }, eng := .idle }

/-- `complete()` (R11, R82): the command ends with no error. -/
def complete (s : State) : Host.Outcome State Fault Refusal := .next (finish none s)

/-- `raise` (R11, R82, R145): taking an error. `s` is the state at acceptance with only the writes the command's rule
keeps; no return address, mode or faulting word is saved (R140, R145). -/
def raiseError (e : CmdError) (s : State) : Host.Outcome State Fault Refusal := .next (finish (some e) s)

/-- The return (R147): a host write of `v` to STATUS acknowledges. A 1 in bit 1, 3 or 4 clears DONE, HAZ or RXOVF; the
other bits are ignored (R23, R50). -/
def acknowledge (v : Word) (s : State) : State :=
  { s with status := { s.status with
      done := s.status.done && !v.getLsbD 1
      haz := s.status.haz && !v.getLsbD 3
      rxovf := s.status.rxovf && !v.getLsbD 4 } }

/-! ## The receive side -/

/-- RXLEN ← 0 and RXOVF ← 0: the flush of R86, R108 and R109. -/
def flushRx (s : State) : State :=
  { s with rxlen := 0#9, status := { s.status with rxovf := false } }

end Sys2Proof.Machine
end

