-- ==== Sys2Proof/Machine/Operands.lean ====
section
/-!
DEFINITION. Machine/Operands.lean: operand assembly (30_encoding.md rule R63), the narrow-operand check
(60_exceptions.md rule R143), RXNEED (44_parser.md rule R120), and the register window's address map
(20_memory.md rule R52).
-/

namespace Sys2Proof.Machine

/-! ## Narrow operands (R63, R143) -/

/-- The low 8 bits of an ARG register. -/
def low8 (w : Word) : Byte := w.extractLsb' 0 8

/-- The low 16 bits of an ARG register. -/
def low16 (w : Word) : Half := w.extractLsb' 0 16

/-- The register has a bit above bit 7, so it is no 8-bit operand. -/
def exceeds8 (w : Word) : Bool := w.extractLsb' 8 24 != 0#24

/-- The register has a bit above bit 15, so it is no 16-bit operand. -/
def exceeds16 (w : Word) : Bool := w.extractLsb' 16 16 != 0#16

/-- The quantity is outside 1..30, compared on all 32 bits (R63, R110, R112). -/
def badCount (w : Word) : Bool := w.toNat < Config.minQty || Config.maxQty < w.toNat

/-- The slave address is outside 0..62 (R25, R109). -/
def badSlave (a : Byte) : Bool := Config.maxSlaveAddr < a.toNat

/-! ## Byte and word sequences (R63) -/

/-- TXBUF[0..TXLEN.LEN-1]. -/
def txBytes (s : State) : List Byte := firstEntries s.txbuf s.txlen.toNat

/-- RXBUF[0..RXLEN.LEN-1]. -/
def rxBytes (s : State) : List Byte := firstEntries s.rxbuf s.rxlen.toNat

/-- The wire bytes of VAL[0..q-1], each high byte first (R69, R112). -/
def valBytes (s : State) (q : Nat) : List Byte := (firstEntries s.val q).flatMap beBytes

/-! ## RXNEED (R120) -/

/-- The value of EXP.FC (R31). -/
def ExpFc.code : ExpFc → Byte
  | .none => 0x00#8
  | .read => 0x03#8
  | .write1 => 0x06#8
  | .writeN => 0x10#8

/-- RXNEED() (R120): a function of EXP.FC, RXLEN.LEN and RXBUF[2]. -/
def rxNeed (s : State) : Nat :=
  match s.exp.fc with
  | .read => if s.rxlen.toNat < Config.rdHdrLen then Config.rdHdrLen else 5 + (s.rxbuf[2]).toNat
  | .write1 => Config.echoLen
  | .writeN => Config.echoLen
  | .none => Config.bufBytes

/-! ## The address map (R52) -/

/-- The registers of R52 that stand alone, by offset. -/
def singleRegs : List (Nat × Reg) :=
  [ (0x000, .ctrl), (0x004, .status), (0x008, .cmd), (0x00C, .slave),
    (0x010, .arg0), (0x014, .arg1), (0x018, .res0), (0x01C, .res1),
    (0x020, .crc), (0x024, .txlen), (0x028, .rxlen), (0x02C, .rxdata),
    (0x030, .rxneed), (0x034, .exp), (0x038, .rxhdr), (0x03C, .rxcrc), (0x040, .pllen) ]

/-- The array entry at an offset, or reserved (R52): VAL from 0x100, RDAT from 0x200, TXBUF from 0x400, RXBUF from 0x1000,
4 bytes an entry. -/
def arrayReg (a : Nat) : Reg :=
  if a < 0x100 then .reserved
  else if a < 0x200 then if h : (a - 0x100) / 4 < 30 then .val ⟨(a - 0x100) / 4, h⟩ else .reserved
  else if a < 0x400 then if h : (a - 0x200) / 4 < 30 then .rdat ⟨(a - 0x200) / 4, h⟩ else .reserved
  else if a < 0x1000 then if h : (a - 0x400) / 4 < 260 then .txbuf ⟨(a - 0x400) / 4, h⟩ else .reserved
  else if h : (a - 0x1000) / 4 < 260 then .rxbuf ⟨(a - 0x1000) / 4, h⟩ else .reserved

/-- The place of the window at an aligned offset (R52). -/
def regAt (off : BitVec 13) : Reg :=
  match singleRegs.lookup off.toNat with
  | some r => r
  | none => arrayReg off.toNat

end Sys2Proof.Machine
end

