-- ==== Sys2Proof/Machine/Flags.lean ====
section
/-!
DEFINITION. Machine/Flags.lean: how STATUS reads (10_state.md rule R23), the numeric error codes
(60_exceptions.md rules R141 and R142), and the interrupt line (R150).
-/

namespace Sys2Proof.Machine

/-- STATUS.BUSY: "reads 1 exactly when ENG = EXEC" (R21). -/
def State.busy (s : State) : Bool :=
  match s.eng with
  | .idle => false
  | .exec _ => true

/-- STATUS.ERRKIND (R141). -/
def errKind : Option CmdError → BitVec 3
  | none => 0#3
  | some .cfgDisconnected => 1#3
  | some .cfgAddr => 1#3
  | some .cfgCount => 1#3
  | some .cfgRange => 1#3
  | some .cfgLen => 1#3
  | some .cfgNoExp => 1#3
  | some .commShort => 2#3
  | some .protoAddr => 3#3
  | some .protoFc => 3#3
  | some .protoBcnt => 3#3
  | some .protoCrc => 3#3
  | some .illegalOpcode => 4#3
  | some .illegalReserved => 4#3

/-- STATUS.ERRCAUSE (R142). -/
def errCause : Option CmdError → BitVec 4
  | none => 0#4
  | some .cfgDisconnected => 1#4
  | some .cfgAddr => 2#4
  | some .cfgCount => 3#4
  | some .cfgRange => 4#4
  | some .cfgLen => 5#4
  | some .cfgNoExp => 6#4
  | some .commShort => 1#4
  | some .protoAddr => 1#4
  | some .protoFc => 2#4
  | some .protoBcnt => 3#4
  | some .protoCrc => 4#4
  | some .illegalOpcode => 1#4
  | some .illegalReserved => 2#4

/-- One flag as a bit. -/
def bit (b : Bool) : BitVec 1 := BitVec.ofBool b

/-- STATUS as the host reads it (R23): [15:12] ERRCAUSE, [10:8] ERRKIND, [4] RXOVF, [3] HAZ, [2] CRCOK, [1] DONE,
[0] BUSY; the rest reads 0. -/
def statusWord (s : State) : Word :=
  0#16 ++ errCause s.status.error ++ 0#1 ++ errKind s.status.error ++ 0#3 ++ bit s.status.rxovf ++ bit s.status.haz
    ++ bit s.status.crcok ++ bit s.status.done ++ bit s.busy

/-- CTRL as the host reads it (R22). -/
def ctrlWord (s : State) : Word := 0#30 ++ bit s.ctrl.irqen ++ bit s.ctrl.en

/-- EXP as the host reads it (R31): [20:16] QTY, [15:8] FC, [7:0] ADDR. -/
def expWord (s : State) : Word := 0#11 ++ s.exp.qty ++ s.exp.fc.code ++ s.exp.addr

/-- RXHDR as the host reads it (R32): [15:8] FC, [7:0] ADDR. -/
def rxhdrWord (s : State) : Word := 0#16 ++ s.rxhdr.fc ++ s.rxhdr.addr

/-- RXCRC as the host reads it (R33): [31:16] RECV, [15:0] CALC. -/
def rxcrcWord (s : State) : Word := s.rxcrc.received ++ s.rxcrc.computed

/-- `irq = CTRL.IRQEN & STATUS.DONE`, a level (R150). -/
def State.irq (s : State) : Bool := s.ctrl.irqen && s.status.done

end Sys2Proof.Machine
end

