-- ==== Sys2Proof/Machine/Control.lean ====
section
/-!
DEFINITION. Machine/Control.lean: the control commands (40_command_cycle.md rules R85 and R86). Each meaning is
the command's body run inside the completion step of R82.
-/

namespace Sys2Proof.Machine

/-- NOP (R85). -/
def execNop (s : State) : Host.Outcome State Fault Refusal := complete s

/-- RX_CLEAR (R86): RXLEN ← 0 and RXOVF ← 0; RXBUF and EXP keep their contents. -/
def execRxClear (s : State) : Host.Outcome State Fault Refusal := complete (flushRx s)

end Sys2Proof.Machine
end

