-- ==== Sys2Proof/Machine/CrcEngine.lean ====
section
/-!
DEFINITION. Machine/CrcEngine.lean: the CRC engine's commands (41_crc.md rules R93 to R96).
-/

namespace Sys2Proof.Machine

/-- A CRC result is left in CRC.ACC and, zero-extended, in RES0 (R95, R96). -/
def putCrc (c : Half) (s : State) : State := { s with crc := c, res0 := c.setWidth 32 }

/-- CRC_INIT (R93). -/
def execCrcInit (s : State) : Host.Outcome State Fault Refusal := complete { s with crc := Config.crcInit }

/-- CRC_BYTE (R94). -/
def execCrcByte (s : State) : Host.Outcome State Fault Refusal :=
  if exceeds8 s.arg0 then raiseError .cfgRange s
  else complete { s with crc := crcStep s.crc (low8 s.arg0) }

/-- CRC_TX (R95). -/
def execCrcTx (s : State) : Host.Outcome State Fault Refusal :=
  if Config.bufBytes < s.txlen.toNat then raiseError .cfgLen s
  else complete (putCrc (crc16 (txBytes s)) s)

/-- CRC_RX (R96). -/
def execCrcRx (s : State) : Host.Outcome State Fault Refusal := complete (putCrc (crc16 (rxBytes s)) s)

end Sys2Proof.Machine
end

