-- ==== Sys2Proof/Machine/Serializer.lean ====
section
/-!
DEFINITION. Machine/Serializer.lean: the raw serializer and the request builders (43_serializer.md rules R108 to
R112; frame layouts 30_encoding.md rules R67 to R69).
-/

namespace Sys2Proof.Machine

/-- The CRC a frame carries, `{frame[n-1], frame[n-2]}` (R44, R109, R123). -/
def frameRecv (f : List Byte) : Half := beHalf (byteAt f (f.length - 1)) (byteAt f (f.length - 2))

/-- SER_APPEND (R108). -/
def execSerAppend (s : State) : Host.Outcome State Fault Refusal :=
  let n := s.txlen.toNat
  if n < 2 || 258 < n then raiseError .cfgLen s
  else
    let c := crc16 (txBytes s)
    complete (flushRx { s with
      txbuf := storeAt s.txbuf n (crcBytes c)
      txlen := BitVec.ofNat 9 (n + 2)
      crc := c
      exp := { addr := 0#8, fc := .none, qty := 0#5 } })

/-- check_common (R109): the checks every request builder makes first. -/
def commonChecks (s : State) : List (Bool × CmdError) :=
  [(!s.ctrl.en, .cfgDisconnected), (badSlave s.slave, .cfgAddr)]

/-- commit (R109): the frame, its length and CRC, the expectation, and the receive flush. TXBUF beyond the frame is
unchanged. -/
def commit (frame : List Byte) (fc : ExpFc) (q : BitVec 5) (s : State) : State :=
  flushRx { s with
    txbuf := storeAt s.txbuf 0 frame
    txlen := BitVec.ofNat 9 frame.length
    crc := frameRecv frame
    exp := { addr := s.slave, fc := fc, qty := q } }

/-- The body of a 0x03 request (R67, R110). -/
def readBody (a : Byte) (start qty : Half) : List Byte := [a, 0x03#8] ++ beBytes start ++ beBytes qty

/-- The body of a 0x06 request (R68, R111). -/
def write1Body (a : Byte) (reg value : Half) : List Byte := [a, 0x06#8] ++ beBytes reg ++ beBytes value

/-- The body of a 0x10 request (R69, R112): the byte count is (2·q)[7:0]. -/
def writeNBody (a : Byte) (start q : Half) (values : List Byte) : List Byte :=
  [a, 0x10#8] ++ beBytes start ++ beBytes q ++ [loByte (2#16 * q)] ++ values

/-- SER_RD (R110). -/
def execSerRd (s : State) : Host.Outcome State Fault Refusal :=
  match firstError (commonChecks s ++ [(exceeds16 s.arg0, .cfgRange), (badCount s.arg1, .cfgCount)]) with
  | some e => raiseError e s
  | none =>
    complete (commit (serialize (readBody s.slave (low16 s.arg0) (low16 s.arg1))) .read (s.arg1.extractLsb' 0 5) s)

/-- SER_WR1 (R111). -/
def execSerWr1 (s : State) : Host.Outcome State Fault Refusal :=
  match firstError (commonChecks s ++ [(exceeds16 s.arg0 || exceeds16 s.arg1, .cfgRange)]) with
  | some e => raiseError e s
  | none => complete (commit (serialize (write1Body s.slave (low16 s.arg0) (low16 s.arg1))) .write1 0#5 s)

/-- SER_WRN (R112). -/
def execSerWrn (s : State) : Host.Outcome State Fault Refusal :=
  match firstError (commonChecks s ++ [(exceeds16 s.arg0, .cfgRange), (badCount s.arg1, .cfgCount)]) with
  | some e => raiseError e s
  | none =>
    let body := writeNBody s.slave (low16 s.arg0) (low16 s.arg1) (valBytes s (low16 s.arg1).toNat)
    complete (commit (serialize body) .writeN (s.arg1.extractLsb' 0 5) s)

end Sys2Proof.Machine
end

