-- ==== Sys2Proof/Machine/Parser.lean ====
section
/-!
DEFINITION. Machine/Parser.lean: the frame parser and response validator (44_parser.md rules R123 to R127 and R130).
-/

namespace Sys2Proof.Machine

/-! ## parse_frame (R123) -/

/-- The payload `f[2..n-3]`, of length n − 4. -/
def framePayload (f : List Byte) : List Byte := (f.drop 2).take (f.length - 4)

/-- The CRC computed over all bytes except the trailing two. -/
def frameCalc (f : List Byte) : Half := crc16 (f.take (f.length - 2))

/-- The CRC check: computed equals received. -/
def frameOk (f : List Byte) : Bool := frameCalc f == frameRecv f

/-- record(f) (R123): RXHDR, RXCRC, PLLEN, CRC.ACC and CRCOK. -/
def record (f : List Byte) (s : State) : State :=
  { s with
    rxhdr := { addr := byteAt f 0, fc := byteAt f 1 }
    rxcrc := { computed := frameCalc f, received := frameRecv f }
    pllen := BitVec.ofNat 9 (f.length - 4)
    crc := frameCalc f
    status := { s.status with crcok := frameOk f } }

/-- STATUS.CRCOK ← 0, the first line of PARSE and PARSE_RAW, kept on every raise. -/
def clearCrcok (s : State) : State := { s with status := { s.status with crcok := false } }

/-! ## The data of a valid response (R126, R127) -/

/-- The `q` words of a 0x03 response, big-endian, from byte 3 on. -/
def readWords (f : List Byte) (q : Nat) : List Half :=
  (List.range q).map fun k => beHalf (byteAt f (3 + 2 * k)) (byteAt f (4 + 2 * k))

/-- decode_read (R126): RDAT[0..QTY-1]; the later entries are unchanged. -/
def decodeRead (f : List Byte) (s : State) : State :=
  { s with rdat := storeAt s.rdat 0 (readWords f s.exp.qty.toNat) }

/-- decode_echo (R127): RES0 and RES1; nothing is compared with the request. -/
def decodeEcho (f : List Byte) (s : State) : State :=
  { s with
    res0 := (beHalf (byteAt f 2) (byteAt f 3)).setWidth 32
    res1 := (beHalf (byteAt f 4) (byteAt f 5)).setWidth 32 }

/-! ## The commands -/

/-- The checks of PARSE before the frame is looked at (R124). -/
def acquisitionChecks (s : State) : List (Bool × CmdError) :=
  [ (!s.ctrl.en, .cfgDisconnected),
    (s.exp.fc == .none, .cfgNoExp),
    (s.rxlen.toNat < rxNeed s, .commShort) ]

/-- The checks of PARSE on the frame's contents (R124), in §4.4's order. -/
def contentChecks (f : List Byte) (s : State) : List (Bool × CmdError) :=
  [ (byteAt f 0 != s.exp.addr, .protoAddr),
    (byteAt f 1 != s.exp.fc.code, .protoFc),
    (s.exp.fc == .read && (byteAt f 2).toNat != 2 * s.exp.qty.toNat, .protoBcnt),
    (frameCalc f != frameRecv f, .protoCrc) ]

/-- PARSE (R124). CRCOK ← 0 is kept on every error, record(f) on a ProtocolError (R125). -/
def execParse (s : State) : Host.Outcome State Fault Refusal :=
  let s0 := clearCrcok s
  match firstError (acquisitionChecks s) with
  | some e => raiseError e s0
  | none =>
    let f := rxBytes s
    let s1 := record f s0
    match firstError (contentChecks f s) with
    | some e => raiseError e s1
    | none => complete (if s.exp.fc = .read then decodeRead f s1 else decodeEcho f s1)

/-- PARSE_RAW (R130): only the length and the CRC are checked. Which frames of the block's own can be pushed back whole is
settled by the push (log entry 14). -/
def execParseRaw (s : State) : Host.Outcome State Fault Refusal :=
  let s0 := clearCrcok s
  if s.rxlen.toNat < 4 then raiseError .commShort s0
  else
    let f := rxBytes s
    let s1 := record f s0
    if frameCalc f != frameRecv f then raiseError .protoCrc s1 else complete s1

end Sys2Proof.Machine
end

