-- ==== Sys2Proof/Machine/WordCodec.lean ====
section
/-!
DEFINITION. Machine/WordCodec.lean: the word codec's commands (42_word_codec.md rules R103 and R104).
-/

namespace Sys2Proof.Machine

/-- SPLIT (R103). -/
def execSplit (s : State) : Host.Outcome State Fault Refusal :=
  complete { s with
    res0 := (splitU32 s.arg0).1.setWidth 32
    res1 := (splitU32 s.arg0).2.setWidth 32 }

/-- COMBINE (R104). -/
def execCombine (s : State) : Host.Outcome State Fault Refusal :=
  if exceeds16 s.arg0 || exceeds16 s.arg1 then raiseError .cfgRange s
  else complete { s with res0 := combineU32 (low16 s.arg0) (low16 s.arg1) }

end Sys2Proof.Machine
end

