-- ==== Sys2Proof/Machine/Dispatch.lean ====
section
/-!
DEFINITION. Machine/Dispatch.lean: one arm per command (30_encoding.md rule R64). `exec i s` is the completion
step of R82 for the command `i`.
-/

namespace Sys2Proof.Machine

def exec (i : Instr) (s : State) : Host.Outcome State Fault Refusal :=
  match i with
  | .nop => Sys2Proof.Machine.execNop s
  | .crcInit => Sys2Proof.Machine.execCrcInit s
  | .crcByte => Sys2Proof.Machine.execCrcByte s
  | .crcTx => Sys2Proof.Machine.execCrcTx s
  | .crcRx => Sys2Proof.Machine.execCrcRx s
  | .split => Sys2Proof.Machine.execSplit s
  | .combine => Sys2Proof.Machine.execCombine s
  | .serAppend => Sys2Proof.Machine.execSerAppend s
  | .serRd => Sys2Proof.Machine.execSerRd s
  | .serWr1 => Sys2Proof.Machine.execSerWr1 s
  | .serWrn => Sys2Proof.Machine.execSerWrn s
  | .parse => Sys2Proof.Machine.execParse s
  | .parseRaw => Sys2Proof.Machine.execParseRaw s
  | .rxClear => Sys2Proof.Machine.execRxClear s

end Sys2Proof.Machine
end

