-- ==== Sys2Proof/Machine/Engine.lean ====
section
/-!
DEFINITION. Machine/Engine.lean: the engine's completion step (40_command_cycle.md rule R82) on the latched word.
-/

namespace Sys2Proof.Machine

/-- The completion step (R82): CMDR is decoded (R65), then its command's rule runs, or IllegalCommand is raised with no
other effect. -/
def completeCommand (s : State) : Host.Outcome State Fault Refusal :=
  match decode s.cmdr with
  | .command i => exec i s
  | .reserved => raiseError .illegalReserved s
  | .opcode => raiseError .illegalOpcode s

end Sys2Proof.Machine
end

