-- ==== Sys2Proof/Machine/HostPort.lean ====
section
/-!
DEFINITION. Machine/HostPort.lean: one cycle of the outside world. Host reads and writes (20_memory.md rules R47 to
R50), the acceptance of a command (40_command_cycle.md rule R81), the RXDATA push (44_parser.md rule R121), and
the reset input (70_reset_and_hazards.md rule R160).
-/

namespace Sys2Proof.Machine

/-- What a read of a place of the window returns (R49, R52); reserved bits, reserved places and write-only ports read 0. -/
def readReg (r : Reg) (s : State) : Word :=
  match r with
  | .ctrl => ctrlWord s
  | .status => statusWord s
  | .cmd => 0#32
  | .slave => s.slave.setWidth 32
  | .arg0 => s.arg0
  | .arg1 => s.arg1
  | .res0 => s.res0
  | .res1 => s.res1
  | .crc => s.crc.setWidth 32
  | .txlen => s.txlen.setWidth 32
  | .rxlen => s.rxlen.setWidth 32
  | .rxdata => 0#32
  | .rxneed => BitVec.ofNat 32 (rxNeed s)
  | .exp => expWord s
  | .rxhdr => rxhdrWord s
  | .rxcrc => rxcrcWord s
  | .pllen => s.pllen.setWidth 32
  | .val i => (s.val[i]).setWidth 32
  | .rdat i => (s.rdat[i]).setWidth 32
  | .txbuf i => (s.txbuf[i]).setWidth 32
  | .rxbuf i => (s.rxbuf[i]).setWidth 32
  | .reserved => 0#32

/-- HostRead (R49): the current state, whether or not BUSY = 1; no side effect (R48). -/
def hostRead (off : BitVec 13) (s : State) : Word := readReg (regAt off) s

/-- Acceptance of a command word while BUSY = 0 (R81): CMDR, ENG, BUSY and DONE, nothing else. The latency is a fresh
free value (R83; log entry 2). -/
def acceptCommand (w : Word) (s : State) : State :=
  { s with
    cmdr := w
    eng := .exec (Config.cmdLatency s.draws)
    draws := s.draws + 1
    status := { s.status with done := false } }

/-- The RXDATA push while BUSY = 0 (R121): accepted while RXLEN < RXNEED, otherwise refused with RXOVF set. This holds for
the block's own request pushed back too, where R130 says that any frame of a SER_* command always passes PARSE_RAW: the
model follows R120 and R121 (log entry 14, DESIGN CHOICE, unsafe). -/
def pushByte (b : Byte) (s : State) : State :=
  if s.rxlen.toNat < rxNeed s then
    { s with rxbuf := s.rxbuf.setIfInBounds s.rxlen.toNat b, rxlen := s.rxlen + 1#9 }
  else
    { s with status := { s.status with rxovf := true } }

/-- A write to a place of the window while BUSY = 0 (R50, R52): only the RW fields of the register are stored. -/
def writeReg (r : Reg) (v : Word) (s : State) : State :=
  match r with
  | .ctrl => { s with ctrl := { en := v.getLsbD 0, irqen := v.getLsbD 1 } }
  | .status => acknowledge v s
  | .cmd => acceptCommand v s
  | .slave => { s with slave := low8 v }
  | .arg0 => { s with arg0 := v }
  | .arg1 => { s with arg1 := v }
  | .res0 => s
  | .res1 => s
  | .crc => { s with crc := low16 v }
  | .txlen => { s with txlen := v.extractLsb' 0 9 }
  | .rxlen => s
  | .rxdata => pushByte (low8 v) s
  | .rxneed => s
  | .exp => s
  | .rxhdr => s
  | .rxcrc => s
  | .pllen => s
  | .val i => { s with val := s.val.set i (low16 v) }
  | .rdat _ => s
  | .txbuf i => { s with txbuf := s.txbuf.set i (low8 v) }
  | .rxbuf _ => s
  | .reserved => s

/-- HostWrite (R50), in its order: STATUS is always honoured; any other write while BUSY = 1 is ignored and sets HAZ. -/
def hostWrite (off : BitVec 13) (v : Word) (s : State) : State :=
  if off = 0x004#13 then acknowledge v s
  else if s.busy then { s with status := { s.status with haz := true } }
  else writeReg (regAt off) v s

/-- An access is legal when hsize = 4 and haddr[1:0] = 0 (R47). -/
def Access.legal (a : Access) : Bool := a.hsize == 4#3 && a.haddr.extractLsb' 0 2 == 0#2

/-- One host access and its answer (R47). -/
def hostAccess (a : Access) (s : State) : State :=
  if a.legal then
    if a.hwrite then { hostWrite a.haddr a.hwdata s with resp := some (.write false) }
    else { s with resp := some (.read (hostRead a.haddr s) false) }
  else
    { s with resp := some (if a.hwrite then .write true else .read 0#32 true) }

/-- One host cycle passes for an executing engine (R83; log entry 2). -/
def tick (s : State) : State :=
  match s.eng with
  | .exec (n + 1) => { s with eng := .exec n }
  | .exec 0 => s
  | .idle => s

/-- One cycle of the outside world without reset: an access, or an idle host (R55, R159). -/
def hostCycle (s : State) : State :=
  match s.inputs with
  | [] => tick s
  | inp :: rest =>
    match inp.access with
    | some a => hostAccess a (tick { s with inputs := rest })
    | none => tick { s with inputs := rest }

/-- The next cycle of the outside world asserts `rst`. -/
def resetPending (s : State) : Bool :=
  match s.inputs with
  | [] => false
  | inp :: _ => inp.rst

/-- The answer to an access while `rst` is asserted (R160): a read returns 0 with herr = 0; a write is ignored, and
its herr is R47's (log entry 10). -/
def answerInReset : Option Access → Option BusResponse
  | none => none
  | some a => some (if a.hwrite then .write (!a.legal) else .read 0#32 false)

/-- One cycle with `rst` asserted (R160, R161): every piece of the block's state takes its reset value, whatever the
block was doing. The outside world's coming cycles and the count of free values drawn are no state of the block. -/
def resetCycle (s : State) : State :=
  match s.inputs with
  | [] => s
  | inp :: rest => { State.reset with inputs := rest, resp := answerInReset inp.access, draws := s.draws }

end Sys2Proof.Machine
end

