-- ==== Sys2Proof/Machine/Step.lean ====
section
/-!
DEFINITION. Machine/Step.lean: one step of the whole machine, a host cycle or an engine completion (20_memory.md
rule R55; log entries 1, 2 and 3).
-/

namespace Sys2Proof.Machine

/-- One step. Reset goes before everything (R160); an engine with no wait left takes its completion step (R82);
otherwise the outside world has its next cycle. -/
def step (s : State) : Host.Outcome State Fault Refusal :=
  if resetPending s then .next (resetCycle s)
  else
    match s.eng with
    | .exec 0 => completeCommand s
    | .exec (_ + 1) => .next (hostCycle s)
    | .idle => .next (hostCycle s)

/-- A cycle in which the host does nothing and `rst` is low. -/
def idleInput : PortIn := { rst := false, access := none }

/-- `s` with the command word `w` (its bits above `nbits` zero) accepted and its latency over: the word is in CMDR, ENG is
EXEC with no wait left, DONE is cleared as acceptance does (R81), and the next cycle does not assert reset. The very next
step is this word's completion (log entry 4). -/
def State.withFetchWord (s : State) (nbits w : Nat) : State :=
  { s with
    cmdr := BitVec.ofNat 32 (w % 2 ^ nbits)
    eng := .exec 0
    status := { s.status with done := false }
    inputs := if resetPending s then idleInput :: s.inputs else s.inputs }

end Sys2Proof.Machine
end

