-- ==== Sys2Proof/Safety.lean ====
section
/-!
DEFINITION. Safety.lean: the terms the statements use: the invariant of 10_state.md rule R40, runs of the machine,
and what two states share when they agree on everything a command can produce.
-/

namespace Sys2Proof.Machine

/-- The clauses of R40 that are not already the shape of State. (b) EXP.FC is one of four values by its type (log entry 7),
and (f) BUSY is read from ENG (log entry 5). -/
structure Inv (s : State) : Prop where
  /-- R40 (a), first half. -/
  rxlen_le : s.rxlen.toNat ≤ rxNeed s
  /-- R40 (a), second half. -/
  rxneed_le : rxNeed s ≤ Config.bufBytes
  /-- R40 (c) and (d). -/
  qty : s.exp.fc = .read ∨ s.exp.fc = .writeN → 1 ≤ s.exp.qty.toNat ∧ s.exp.qty.toNat ≤ Config.maxQty
  /-- R40 (e). -/
  addr : s.exp.fc ≠ .none → s.exp.addr.toNat ≤ Config.maxSlaveAddr

/-- `t` is reached from `s` in `k` steps, none of which stops. -/
def RunsTo (k : Nat) (s t : State) : Prop := Host.Core.run Sys2Proof.core k s = .next t

/-- A safe run: the machine goes on for `k` steps from `s` with no fault and no refusal. -/
def Safe (k : Nat) (s : State) : Prop := ∃ t, RunsTo k s t

/-- The next `k` cycles of the outside world do not assert `rst`. -/
def NoResetIn (k : Nat) (s : State) : Prop := ∀ inp ∈ s.inputs.take k, inp.rst = false

/-- `s` without what a host cycle can change while BUSY = 1: the W1C bits DONE, HAZ and RXOVF, the outside world's cycles
and answer, and the engine's wait. Two states with equal cores agree on every input and every result of a command. -/
def commandCore (s : State) : State :=
  { s with
    status := { s.status with done := false, haz := false, rxovf := false }
    eng := .idle
    inputs := []
    resp := none }

/-- How R82 ends a command that left the state `s`: the error record, DONE = 1, BUSY = 0, ENG = IDLE. -/
def ended (error : Option CmdError) (s : State) : State :=
  { s with eng := .idle, status := { s.status with done := true, error := error } }

/-- The host's next cycle is the access `a` with `rst` low, and the engine is not about to complete; `s'` is `s` once that
cycle is taken off the list and one cycle of the engine's wait is over (log entries 1 to 3). -/
def HostTurn (s : State) (a : Access) (s' : State) : Prop :=
  ∃ rest, s.inputs = { rst := false, access := some a } :: rest ∧
    ((s.eng = .idle ∧ s' = { s with inputs := rest }) ∨
      ∃ n, s.eng = .exec (n + 1) ∧ s' = { s with inputs := rest, eng := .exec n })

/-- The high byte of a 16-bit number. -/
def highByte (n : Nat) : Byte := BitVec.ofNat 8 (n / 256)

/-- The low byte of a 16-bit number. -/
def lowByte (n : Nat) : Byte := BitVec.ofNat 8 (n % 256)

/-- The two wire bytes of each word of a sequence, high byte first (R43). -/
def wireWords (ws : List Half) : List Byte := ws.flatMap fun w => [highByte w.toNat, lowByte w.toNat]

/-- A body with its CRC, low byte first (R44, R66). -/
def framed (body : List Byte) : List Byte := body ++ [lowByte (crc16 body).toNat, highByte (crc16 body).toNat]

/-- The array begins with the sequence. -/
def StartsWith {α : Type} {n : Nat} (v : Vector α n) (xs : List α) : Prop :=
  ∀ i (h : i < xs.length), v[i]? = some xs[i]

/-- Two arrays agree from entry `k` on. -/
def SameFrom {α : Type} {n : Nat} (k : Nat) (v w : Vector α n) : Prop := ∀ i, k ≤ i → v[i]? = w[i]?

/-- What a request builder leaves on success (R109): the framed body in TXBUF, its length and CRC, the expectation, a
flushed receive side, and nothing else but the end of the command. -/
def BuiltRequest (s : State) (body : List Byte) (fc : ExpFc) (qty : Nat) (o : Host.Outcome State Fault Refusal) : Prop :=
  ∃ tx, o = .next (ended none { s with
      txbuf := tx
      txlen := BitVec.ofNat 9 (body.length + 2)
      crc := crc16 body
      exp := { addr := s.slave, fc := fc, qty := BitVec.ofNat 5 qty }
      rxlen := 0#9
      status := { s.status with rxovf := false } }) ∧
    StartsWith tx (framed body) ∧ SameFrom (body.length + 2) tx s.txbuf

/-- The CRC a frame carries in its last two bytes, low byte first (R44). -/
def carriedCrc (f : List Byte) : Half :=
  BitVec.ofNat 16 (256 * (f.getD (f.length - 1) 0#8).toNat + (f.getD (f.length - 2) 0#8).toNat)

/-- The CRC of a frame's first n − 2 bytes (R66). -/
def computedCrc (f : List Byte) : Half := crc16 (f.take (f.length - 2))

/-- The parse-result registers after record(f) (R123). -/
def recorded (f : List Byte) (s : State) : State :=
  { s with
    rxhdr := { addr := f.getD 0 0#8, fc := f.getD 1 0#8 }
    rxcrc := { computed := computedCrc f, received := carriedCrc f }
    pllen := BitVec.ofNat 9 (f.length - 4)
    crc := computedCrc f
    status := { s.status with crcok := computedCrc f == carriedCrc f } }

/-- `f` is RXBUF[0..RXLEN.LEN-1]. -/
def Received (s : State) (f : List Byte) : Prop := f.length = s.rxlen.toNat ∧ StartsWith s.rxbuf f

/-- CRC_BYTE once for each byte, ARG0 written before each (R94). -/
def foldBytes : List Byte → State → Host.Outcome State Fault Refusal
  | [], s => .next s
  | b :: bs, s =>
    match exec .crcByte { s with arg0 := b.setWidth 32 } with
    | .next t => foldBytes bs t
    | .fault r => .fault r
    | .refused r => .refused r

/-- The host pushes a sequence of bytes through RXDATA while BUSY = 0 (R77 `push`, R121). -/
def pushAll : List Byte → State → State
  | [], s => s
  | b :: bs, s => pushAll bs (pushByte b s)

end Sys2Proof.Machine
end

