-- ==== Sys2Proof/Certificates/Slice0/Obligations.lean ====
section
/-!
DEFINITION. Certificates/Slice0/Obligations.lean: the statements for the provers. Each formalises the rules its docstring
names; the words it uses beyond the machine's own are those of Safety.lean.
-/

open Sys2Proof Sys2Proof.Machine

/-! ## Encoding -/

/-- 30_encoding.md R62, R64, R78: decoding and encoding agree in both directions, on all 2^32 words and all 14 commands. -/
def Obligations.DecodeAndEncodeAgree : Prop :=
  ∀ (w : Word) (i : Instr), decode w = .command i ↔ w = encode i

/-- R64: the OP values and the commands they select, each as the whole word (RSV = 0). -/
def Obligations.OpcodeMapDecodes : Prop :=
  decode 0x00000000#32 = .command .nop ∧ decode 0x00000001#32 = .command .crcInit ∧
  decode 0x00000002#32 = .command .crcByte ∧ decode 0x00000003#32 = .command .crcTx ∧
  decode 0x00000004#32 = .command .crcRx ∧ decode 0x00000010#32 = .command .split ∧
  decode 0x00000011#32 = .command .combine ∧ decode 0x00000020#32 = .command .serAppend ∧
  decode 0x00000021#32 = .command .serRd ∧ decode 0x00000022#32 = .command .serWr1 ∧
  decode 0x00000023#32 = .command .serWrn ∧ decode 0x00000030#32 = .command .parse ∧
  decode 0x00000031#32 = .command .parseRaw ∧ decode 0x0000003F#32 = .command .rxClear

/-- R65: at completion RESERVED is checked first, then OPCODE, then the command's rule runs; an illegal word changes
nothing but the error record and the completion flags. -/
def Obligations.IllegalWordsRaiseInOrder : Prop :=
  ∀ s : State, s.eng = .exec 0 → resetPending s = false →
    (256 ≤ s.cmdr.toNat → step s = .next (ended (some .illegalReserved) s)) ∧
    (s.cmdr.toNat < 256 →
      s.cmdr.toNat ∉ [0x00, 0x01, 0x02, 0x03, 0x04, 0x10, 0x11, 0x20, 0x21, 0x22, 0x23, 0x30, 0x31, 0x3F] →
      step s = .next (ended (some .illegalOpcode) s)) ∧
    (∀ i : Instr, s.cmdr = encode i → step s = exec i s)

/-! ## The step -/

/-- R82: an engine with no wait left runs the decoded command, and the step adds nothing around it (log entries 2, 3). -/
def Obligations.StepRunsTheDecodedCommand : Prop :=
  ∀ (s : State) (i : Instr), resetPending s = false → s.eng = .exec 0 → decode s.cmdr = .command i → step s = exec i s

/-- Every run goes on. R140 says that a failing command completes like any other; that no behaviour of the block at all
stops it is the model's deduction (log entry 12, DEDUCED), no sentence of R140. -/
def Obligations.MachineNeverStops : Prop :=
  ∀ (k : Nat) (s : State), Safe k s

/-- R82: every command, in every state, completes: DONE = 1, BUSY = 0, ENG = IDLE. -/
def Obligations.EveryCommandCompletes : Prop :=
  ∀ (i : Instr) (s : State), ∃ t, exec i s = .next t ∧ t.status.done = true ∧ t.eng = .idle

/-- R40 holds at reset. -/
def Obligations.ResetMeetsTheInvariant : Prop := Inv State.reset

/-- R40: every step, of any agent, keeps RXLEN ≤ RXNEED ≤ 260, the range of EXP.QTY and the range of EXP.ADDR. -/
def Obligations.EveryStepKeepsTheInvariant : Prop :=
  ∀ s t : State, Inv s → step s = .next t → Inv t

/-- R160, R161: a cycle with `rst` asserted puts all state into its reset value in one step, whatever the block was doing;
reads answer 0 with herr = 0, writes are ignored, irq = 0. That an illegal read too answers herr = 0 in that cycle, where R47
says 1, is the model's reading of R160 (log entry 10, DEDUCED, unsafe); `inputs`, `resp` and `draws` are the model's own (log
entries 1, 8 and 2). -/
def Obligations.ResetCycleResetsEverything : Prop :=
  ∀ (s : State) (inp : PortIn) (rest : List PortIn), s.inputs = inp :: rest → inp.rst = true →
    ∃ r d, step s = .next { State.reset with inputs := rest, resp := r, draws := d } ∧
      (∀ a, inp.access = some a → a.hwrite = false → r = some (.read 0#32 false)) ∧
      (State.irq { State.reset with inputs := rest, resp := r, draws := d } = false)

/-- R41: after reset ENG = IDLE, CMDR = 0, irq = 0, CRC reads 0xFFFF, RXNEED reads 260, and every other offset reads 0. -/
def Obligations.ResetWindowReads : Prop :=
  State.reset.eng = .idle ∧ State.reset.cmdr = 0#32 ∧ State.reset.irq = false ∧
  ∀ off : BitVec 13, (hostRead off State.reset).toNat =
    if off.toNat = 0x020 then 0xFFFF else if off.toNat = 0x030 then 260 else 0

/-- R159: an idle engine changes no state until the next host access: with no cycle left the step stays where it is, and an
idle cycle is only taken off the list (log entry 1). -/
def Obligations.IdleEngineChangesNothing : Prop :=
  ∀ s : State, s.eng = .idle →
    (s.inputs = [] → step s = .next s) ∧
    (∀ rest, s.inputs = { rst := false, access := none } :: rest → step s = .next { s with inputs := rest })

/-! ## The host port -/

/-- R47: only aligned 4-byte accesses are legal. An illegal one answers herr = 1, a read of it 0, and changes no state;
a legal one answers herr = 0 and is HostRead or HostWrite. -/
def Obligations.OnlyAlignedWordAccessesAreLegal : Prop :=
  ∀ (s s' : State) (a : Access), HostTurn s a s' →
    (a.hsize.toNat ≠ 4 ∨ a.haddr.toNat % 4 ≠ 0 →
      step s = .next { s' with resp := some (if a.hwrite then .write true else .read 0#32 true) }) ∧
    (a.hsize.toNat = 4 → a.haddr.toNat % 4 = 0 → a.hwrite = false →
      step s = .next { s' with resp := some (.read (hostRead a.haddr s) false) }) ∧
    (a.hsize.toNat = 4 → a.haddr.toNat % 4 = 0 → a.hwrite = true →
      step s = .next { hostWrite a.haddr a.hwdata s' with resp := some (.write false) })

/-- R49, R52: what a read of each offset returns, built from the register's fields with reserved bits 0 (STATUS and RXNEED
have statements of their own). -/
def Obligations.WindowReadsItsRegisters : Prop :=
  ∀ s : State,
    (hostRead 0x000#13 s).toNat = 2 * s.ctrl.irqen.toNat + s.ctrl.en.toNat ∧
    (hostRead 0x008#13 s).toNat = 0 ∧
    (hostRead 0x00C#13 s).toNat = s.slave.toNat ∧
    hostRead 0x010#13 s = s.arg0 ∧ hostRead 0x014#13 s = s.arg1 ∧
    hostRead 0x018#13 s = s.res0 ∧ hostRead 0x01C#13 s = s.res1 ∧
    (hostRead 0x020#13 s).toNat = s.crc.toNat ∧
    (hostRead 0x024#13 s).toNat = s.txlen.toNat ∧
    (hostRead 0x028#13 s).toNat = s.rxlen.toNat ∧
    (hostRead 0x02C#13 s).toNat = 0 ∧
    (hostRead 0x034#13 s).toNat = 65536 * s.exp.qty.toNat + 256 * s.exp.fc.code.toNat + s.exp.addr.toNat ∧
    (hostRead 0x038#13 s).toNat = 256 * s.rxhdr.fc.toNat + s.rxhdr.addr.toNat ∧
    (hostRead 0x03C#13 s).toNat = 65536 * s.rxcrc.received.toNat + s.rxcrc.computed.toNat ∧
    (hostRead 0x040#13 s).toNat = s.pllen.toNat ∧
    (∀ i : Fin 30, (hostRead (BitVec.ofNat 13 (0x100 + 4 * i.val)) s).toNat = (s.val[i]).toNat) ∧
    (∀ i : Fin 30, (hostRead (BitVec.ofNat 13 (0x200 + 4 * i.val)) s).toNat = (s.rdat[i]).toNat) ∧
    (∀ i : Fin 260, (hostRead (BitVec.ofNat 13 (0x400 + 4 * i.val)) s).toNat = (s.txbuf[i]).toNat) ∧
    (∀ i : Fin 260, (hostRead (BitVec.ofNat 13 (0x1000 + 4 * i.val)) s).toNat = (s.rxbuf[i]).toNat) ∧
    (∀ off : BitVec 13, off.toNat % 4 = 0 →
      (0x044 ≤ off.toNat ∧ off.toNat ≤ 0x0FC) ∨ (0x178 ≤ off.toNat ∧ off.toNat ≤ 0x1FC) ∨
      (0x278 ≤ off.toNat ∧ off.toNat ≤ 0x3FC) ∨ (0x810 ≤ off.toNat ∧ off.toNat ≤ 0xFFC) ∨ 0x1410 ≤ off.toNat →
      hostRead off s = 0#32)

/-- R23, R141, R142: STATUS reads BUSY, DONE, CRCOK, HAZ and RXOVF in bits 0 to 4, ERRKIND in bits 10:8 and ERRCAUSE in bits
15:12, with the codes of the two tables, and 0 elsewhere. -/
def Obligations.StatusReadsFlagsAndErrorCodes : Prop :=
  ∀ s : State, (hostRead 0x004#13 s).toNat =
    (match s.status.error with
      | none => 0x0000
      | some .cfgDisconnected => 0x1100
      | some .cfgAddr => 0x2100
      | some .cfgCount => 0x3100
      | some .cfgRange => 0x4100
      | some .cfgLen => 0x5100
      | some .cfgNoExp => 0x6100
      | some .commShort => 0x1200
      | some .protoAddr => 0x1300
      | some .protoFc => 0x2300
      | some .protoBcnt => 0x3300
      | some .protoCrc => 0x4300
      | some .illegalOpcode => 0x1400
      | some .illegalReserved => 0x2400)
    + 16 * s.status.rxovf.toNat + 8 * s.status.haz.toNat + 4 * s.status.crcok.toNat + 2 * s.status.done.toNat
    + (if s.eng = .idle then 0 else 1)

/-- R50: a host write at an aligned offset, decided in the rule's order; and no legal write, to a read-only or reserved offset
either, answers herr = 1. -/
def Obligations.HostWriteInItsOrder : Prop :=
  (∀ (s : State) (off : BitVec 13) (v : Word), off.toNat % 4 = 0 →
    (off.toNat = 0x004 → hostWrite off v s = { s with status := { s.status with
        done := if v.getLsbD 1 then false else s.status.done
        haz := if v.getLsbD 3 then false else s.status.haz
        rxovf := if v.getLsbD 4 then false else s.status.rxovf } }) ∧
    (off.toNat ≠ 0x004 → s.eng ≠ .idle → hostWrite off v s = { s with status := { s.status with haz := true } }) ∧
    (s.eng = .idle →
      (off.toNat = 0x008 → ∃ n d, hostWrite off v s =
        { s with cmdr := v, eng := .exec n, draws := d, status := { s.status with done := false } }) ∧
      (off.toNat = 0x02C → hostWrite off v s = pushByte (BitVec.ofNat 8 v.toNat) s) ∧
      (off.toNat = 0x000 → hostWrite off v s = { s with ctrl := { en := v.getLsbD 0, irqen := v.getLsbD 1 } }) ∧
      (off.toNat = 0x00C → hostWrite off v s = { s with slave := BitVec.ofNat 8 v.toNat }) ∧
      (off.toNat = 0x010 → hostWrite off v s = { s with arg0 := v }) ∧
      (off.toNat = 0x014 → hostWrite off v s = { s with arg1 := v }) ∧
      (off.toNat = 0x020 → hostWrite off v s = { s with crc := BitVec.ofNat 16 v.toNat }) ∧
      (off.toNat = 0x024 → hostWrite off v s = { s with txlen := BitVec.ofNat 9 v.toNat }) ∧
      (∀ i : Fin 30, off.toNat = 0x100 + 4 * i.val →
        hostWrite off v s = { s with val := s.val.set i (BitVec.ofNat 16 v.toNat) }) ∧
      (∀ i : Fin 260, off.toNat = 0x400 + 4 * i.val →
        hostWrite off v s = { s with txbuf := s.txbuf.set i (BitVec.ofNat 8 v.toNat) }) ∧
      ((off.toNat = 0x018 ∨ off.toNat = 0x01C ∨ off.toNat = 0x028 ∨ (0x030 ≤ off.toNat ∧ off.toNat ≤ 0x0FC) ∨
        (0x178 ≤ off.toNat ∧ off.toNat ≤ 0x3FC) ∨ 0x810 ≤ off.toNat) → hostWrite off v s = s))) ∧
  ∀ (s s' : State) (a : Access), HostTurn s a s' → a.hsize.toNat = 4 → a.haddr.toNat % 4 = 0 → a.hwrite = true →
    ∃ t, step s = .next t ∧ t.resp = some (.write false)

/-- R50, R52: after a write to a read-write register the same offset reads the written value cut to the register's fields,
and every other aligned offset reads as before. -/
def Obligations.WriteThenReadBack : Prop :=
  ∀ (s : State) (off : BitVec 13) (v : Word) (mask : Word), s.eng = .idle →
    ((off.toNat = 0x000 ∧ mask = 0x3#32) ∨ (off.toNat = 0x00C ∧ mask = 0xFF#32) ∨
      (off.toNat = 0x010 ∧ mask = 0xFFFFFFFF#32) ∨ (off.toNat = 0x014 ∧ mask = 0xFFFFFFFF#32) ∨
      (off.toNat = 0x020 ∧ mask = 0xFFFF#32) ∨ (off.toNat = 0x024 ∧ mask = 0x1FF#32) ∨
      (0x100 ≤ off.toNat ∧ off.toNat ≤ 0x174 ∧ off.toNat % 4 = 0 ∧ mask = 0xFFFF#32) ∨
      (0x400 ≤ off.toNat ∧ off.toNat ≤ 0x80C ∧ off.toNat % 4 = 0 ∧ mask = 0xFF#32)) →
    hostRead off (hostWrite off v s) = v &&& mask ∧
    ∀ off' : BitVec 13, off'.toNat % 4 = 0 → off' ≠ off → hostRead off' (hostWrite off v s) = hostRead off' s

/-- R166: while BUSY = 1 a legal write to any offset but STATUS is ignored and sets HAZ; its step changes nothing else. -/
def Obligations.WritesWhileBusyAreDropped : Prop :=
  ∀ (s s' : State) (a : Access), HostTurn s a s' → s.eng ≠ .idle → a.hsize.toNat = 4 → a.haddr.toNat % 4 = 0 →
    a.hwrite = true → a.haddr.toNat ≠ 0x004 →
    step s = .next { s' with status := { s'.status with haz := true }, resp := some (.write false) }

/-- R81: a CMD write while BUSY = 0 is accepted whatever the word; while BUSY = 1 it is not, and sets HAZ. -/
def Obligations.CommandAcceptance : Prop :=
  ∀ (s s' : State) (a : Access), HostTurn s a s' → a.hsize.toNat = 4 → a.haddr.toNat = 0x008 → a.hwrite = true →
    (s.eng = .idle → ∃ n d, step s = .next { s' with
        cmdr := a.hwdata, eng := .exec n, draws := d, status := { s'.status with done := false },
        resp := some (.write false) }) ∧
    (s.eng ≠ .idle → step s = .next { s' with status := { s'.status with haz := true }, resp := some (.write false) })

/-- R120: RXNEED, its range 3..260, and that it reads the same while EXP, RXLEN and RXBUF are unchanged. -/
def Obligations.RxneedFollowsTheExpectation : Prop :=
  (∀ s : State,
    (s.exp.fc = .read → s.rxlen.toNat < 3 → (hostRead 0x030#13 s).toNat = 3) ∧
    (s.exp.fc = .read → 3 ≤ s.rxlen.toNat → (hostRead 0x030#13 s).toNat = 5 + (s.rxbuf[2]).toNat) ∧
    (s.exp.fc = .write1 ∨ s.exp.fc = .writeN → (hostRead 0x030#13 s).toNat = 8) ∧
    (s.exp.fc = .none → (hostRead 0x030#13 s).toNat = 260) ∧
    3 ≤ (hostRead 0x030#13 s).toNat ∧ (hostRead 0x030#13 s).toNat ≤ 260) ∧
  ∀ s t : State, t.exp = s.exp → t.rxlen = s.rxlen → t.rxbuf = s.rxbuf → hostRead 0x030#13 t = hostRead 0x030#13 s

/-- R121: a push below RXNEED is stored at RXBUF[RXLEN] and counted; any other sets RXOVF; while BUSY it sets HAZ. -/
def Obligations.PushStoresOnlyBelowRxneed : Prop :=
  ∀ (s : State) (v : Word),
    (s.eng = .idle → s.rxlen.toNat < rxNeed s → ∃ buf : Vector Byte 260,
      hostWrite 0x02C#13 v s = { s with rxbuf := buf, rxlen := BitVec.ofNat 9 (s.rxlen.toNat + 1) } ∧
      buf[s.rxlen.toNat]? = some (BitVec.ofNat 8 v.toNat) ∧
      ∀ i, i ≠ s.rxlen.toNat → buf[i]? = s.rxbuf[i]?) ∧
    (s.eng = .idle → rxNeed s ≤ s.rxlen.toNat →
      hostWrite 0x02C#13 v s = { s with status := { s.status with rxovf := true } }) ∧
    (s.eng ≠ .idle → hostWrite 0x02C#13 v s = { s with status := { s.status with haz := true } })

/-- R150: irq = CTRL.IRQEN & STATUS.DONE; every completion, failed or not, drives it from IRQEN; a write of 1 to DONE,
the acceptance of a command and reset lower it. -/
def Obligations.IrqFollowsDoneAndMask : Prop :=
  (∀ s : State, s.irq = (s.ctrl.irqen && s.status.done)) ∧
  (∀ (i : Instr) (s t : State), exec i s = .next t → t.irq = s.ctrl.irqen) ∧
  (∀ (s : State) (v : Word), v.getLsbD 1 = true → (hostWrite 0x004#13 v s).irq = false) ∧
  (∀ (s : State) (w : Word), s.eng = .idle → (hostWrite 0x008#13 w s).irq = false) ∧
  State.reset.irq = false

/-! ## Rules about every command -/

/-- R145, R125: a command that fails changes the error record and the completion flags only; PARSE and PARSE_RAW also clear
CRCOK, and on a ProtocolError keep record(f). -/
def Obligations.FailedCommandChangesOnlyStatus : Prop :=
  ∀ (i : Instr) (s t : State) (e : CmdError), exec i s = .next t → t.status.error = some e →
    (i ≠ .parse → i ≠ .parseRaw → t = ended (some e) s) ∧
    (i = .parse ∨ i = .parseRaw → e ∉ [.protoAddr, .protoFc, .protoBcnt, .protoCrc] →
      t = ended (some e) { s with status := { s.status with crcok := false } }) ∧
    (i = .parse ∨ i = .parseRaw → e ∈ [.protoAddr, .protoFc, .protoBcnt, .protoCrc] →
      ∀ f, Received s f → t = ended (some e) (recorded f s))

/-- The frame of every command (R17, R18, R22, R25 to R38): a register is unchanged unless the command is one the rule of
that register names as writing it. -/
def Obligations.FrameOfEveryCommand : Prop :=
  ∀ (i : Instr) (s t : State), exec i s = .next t →
    t.cmdr = s.cmdr ∧ t.ctrl = s.ctrl ∧ t.slave = s.slave ∧ t.arg0 = s.arg0 ∧ t.arg1 = s.arg1 ∧
    t.val = s.val ∧ t.rxbuf = s.rxbuf ∧ t.inputs = s.inputs ∧ t.resp = s.resp ∧ t.draws = s.draws ∧
    (i ∉ [.split, .combine, .crcTx, .crcRx, .parse] → t.res0 = s.res0) ∧
    (i ∉ [.split, .parse] → t.res1 = s.res1) ∧
    (i ∉ [.crcInit, .crcByte, .crcTx, .crcRx, .serAppend, .serRd, .serWr1, .serWrn, .parse, .parseRaw] → t.crc = s.crc) ∧
    (i ∉ [.serAppend, .serRd, .serWr1, .serWrn] → t.txlen = s.txlen ∧ t.txbuf = s.txbuf ∧ t.exp = s.exp) ∧
    (i ∉ [.rxClear, .serAppend, .serRd, .serWr1, .serWrn] → t.rxlen = s.rxlen) ∧
    (i ∉ [.parse, .parseRaw] → t.rxhdr = s.rxhdr ∧ t.rxcrc = s.rxcrc ∧ t.pllen = s.pllen) ∧
    (i ≠ .parse → t.rdat = s.rdat)

/-- R23, R39: HAZ is written by no command, CRCOK by PARSE and PARSE_RAW only, RXOVF by RX_CLEAR and the SER commands only
(to 0, on success). -/
def Obligations.FlagFrameOfEveryCommand : Prop :=
  ∀ (i : Instr) (s t : State), exec i s = .next t →
    t.status.haz = s.status.haz ∧
    (i ∉ [.parse, .parseRaw] → t.status.crcok = s.status.crcok) ∧
    t.status.rxovf = (if i ∈ [.rxClear, .serAppend, .serRd, .serWr1, .serWrn] ∧ t.status.error = none then false
      else s.status.rxovf)

/-- R39: no command reads a flag as an input: with other flags and another error record before it, a command leaves the
same registers, the same error record and the same DONE. -/
def Obligations.NoCommandReadsAFlag : Prop :=
  ∀ (i : Instr) (s t t' : State) (st : Status), exec i s = .next t → exec i { s with status := st } = .next t' →
    { t' with status := t.status } = t ∧ t'.status.error = t.status.error ∧ t'.status.done = t.status.done

/-- R83: every accepted command completes after finitely many steps unless a reset comes first: with `n` cycles of wait left,
in `n + 1` steps (the wait and the count of steps are the model's, log entries 2 and 3). -/
def Obligations.AcceptedCommandCompletesUnlessReset : Prop :=
  ∀ (s : State) (n : Nat), s.eng = .exec n → NoResetIn (n + 1) s →
    ∃ t, RunsTo (n + 1) s t ∧ t.eng = .idle ∧ t.status.done = true

/-- R56, R59: whatever the latency and whatever the host does meanwhile, a command leaves what it would have left had it
completed at once, but for the W1C bits and the host's own cycles. The wait of `n` cycles and the `n + 1` steps are the model's
form of the open latency (log entries 2 and 3). -/
def Obligations.CommandResultIndependentOfLatency : Prop :=
  ∀ (s t : State) (n : Nat), s.eng = .exec n → NoResetIn (n + 1) s → RunsTo (n + 1) s t →
    ∃ u, completeCommand s = .next u ∧ commandCore t = commandCore u

/-! ## The CRC engine -/

/-- R90: crc_step, as the rule's loop on 16-bit numbers. -/
def Obligations.CrcStepIsTheShiftLoop : Prop :=
  ∀ (c : Half) (b : Byte), (crcStep c b).toNat =
    Nat.repeat (fun x => if x % 2 = 1 then (x / 2) ^^^ 0xA001 else x / 2) 8 (c.toNat ^^^ b.toNat)

/-- R97 (c): the CRC of a body followed by its own CRC, low byte first, is 0. -/
def Obligations.CrcResidueIsZero : Prop :=
  ∀ bs : List Byte, crc16 (framed bs) = 0#16

/-- R94, R97 (a): CRC_INIT and then CRC_BYTE for each byte of a sequence leaves its crc16 in ACC. -/
def Obligations.CrcByteStreamGivesCrc16 : Prop :=
  ∀ (bs : List Byte) (s : State), ∃ t u, exec .crcInit s = .next t ∧ foldBytes bs t = .next u ∧ u.crc = crc16 bs

/-- R93, with its corner case: a host write of 0xFFFF to CRC has the same effect on ACC. -/
def Obligations.CrcInitLoadsFfff : Prop :=
  encode .crcInit = 0x00000001#32 ∧
  (∀ s : State, exec .crcInit s = .next (ended none { s with crc := 0xFFFF#16 })) ∧
  ∀ s : State, s.eng = .idle → hostWrite 0x020#13 0x0000FFFF#32 s = { s with crc := 0xFFFF#16 }

/-- R94. -/
def Obligations.CrcByteFoldsOneByte : Prop :=
  encode .crcByte = 0x00000002#32 ∧ ∀ s : State,
    (0xFF < s.arg0.toNat → exec .crcByte s = .next (ended (some .cfgRange) s)) ∧
    (s.arg0.toNat ≤ 0xFF →
      exec .crcByte s = .next (ended none { s with crc := crcStep s.crc (BitVec.ofNat 8 s.arg0.toNat) }))

/-- R95. -/
def Obligations.CrcTxOfTheTransmitBuffer : Prop :=
  encode .crcTx = 0x00000003#32 ∧ ∀ s : State,
    (260 < s.txlen.toNat → exec .crcTx s = .next (ended (some .cfgLen) s)) ∧
    ∀ bs : List Byte, bs.length = s.txlen.toNat → StartsWith s.txbuf bs →
      exec .crcTx s = .next (ended none { s with crc := crc16 bs, res0 := BitVec.ofNat 32 (crc16 bs).toNat })

/-- R96. -/
def Obligations.CrcRxOfTheReceiveBuffer : Prop :=
  encode .crcRx = 0x00000004#32 ∧ ∀ (s : State) (bs : List Byte), Received s bs →
    exec .crcRx s = .next (ended none { s with crc := crc16 bs, res0 := BitVec.ofNat 32 (crc16 bs).toNat })

/-! ## The word codec and the control commands -/

/-- R103. -/
def Obligations.SplitGivesBothHalves : Prop :=
  encode .split = 0x00000010#32 ∧ ∀ s : State, exec .split s = .next (ended none { s with
    res0 := BitVec.ofNat 32 (s.arg0.toNat / 65536)
    res1 := BitVec.ofNat 32 (s.arg0.toNat % 65536) })

/-- R104. -/
def Obligations.CombineJoinsTwoHalves : Prop :=
  encode .combine = 0x00000011#32 ∧ ∀ s : State,
    (0xFFFF < s.arg0.toNat ∨ 0xFFFF < s.arg1.toNat → exec .combine s = .next (ended (some .cfgRange) s)) ∧
    (s.arg0.toNat ≤ 0xFFFF → s.arg1.toNat ≤ 0xFFFF →
      exec .combine s = .next (ended none { s with res0 := BitVec.ofNat 32 (65536 * s.arg0.toNat + s.arg1.toNat) }))

/-- R102: split and combine are exact inverses, each way. -/
def Obligations.SplitAndCombineAreInverses : Prop :=
  (∀ x : Word, combineU32 (splitU32 x).1 (splitU32 x).2 = x) ∧
  ∀ hi lo : Half, splitU32 (combineU32 hi lo) = (hi, lo)

/-- R85: NOP completes and changes nothing else. -/
def Obligations.NopOnlyCompletes : Prop :=
  encode .nop = 0x00000000#32 ∧ ∀ s : State, exec .nop s = .next (ended none s)

/-- R86: RX_CLEAR empties the receive side; RXBUF, EXP and the parse results keep their contents. -/
def Obligations.RxClearFlushesTheReceiveSide : Prop :=
  encode .rxClear = 0x0000003F#32 ∧ ∀ s : State,
    exec .rxClear s = .next (ended none { s with rxlen := 0#9, status := { s.status with rxovf := false } })

/-! ## The serializer and the request builders -/

/-- R108. -/
def Obligations.SerAppendAppendsTheCrc : Prop :=
  encode .serAppend = 0x00000020#32 ∧ ∀ s : State,
    (s.txlen.toNat < 2 ∨ 258 < s.txlen.toNat → exec .serAppend s = .next (ended (some .cfgLen) s)) ∧
    ∀ body : List Byte, body.length = s.txlen.toNat → StartsWith s.txbuf body → 2 ≤ body.length → body.length ≤ 258 →
      ∃ tx, exec .serAppend s = .next (ended none { s with
          txbuf := tx
          txlen := BitVec.ofNat 9 (body.length + 2)
          crc := crc16 body
          exp := { addr := 0#8, fc := .none, qty := 0#5 }
          rxlen := 0#9
          status := { s.status with rxovf := false } }) ∧
        StartsWith tx (framed body) ∧ SameFrom (body.length + 2) tx s.txbuf

/-- R110, with R67's layout and R109's commit. -/
def Obligations.SerRdBuildsAReadRequest : Prop :=
  encode .serRd = 0x00000021#32 ∧ ∀ s : State,
    (s.ctrl.en = false → exec .serRd s = .next (ended (some .cfgDisconnected) s)) ∧
    (s.ctrl.en = true → 62 < s.slave.toNat → exec .serRd s = .next (ended (some .cfgAddr) s)) ∧
    (s.ctrl.en = true → s.slave.toNat ≤ 62 → 0xFFFF < s.arg0.toNat →
      exec .serRd s = .next (ended (some .cfgRange) s)) ∧
    (s.ctrl.en = true → s.slave.toNat ≤ 62 → s.arg0.toNat ≤ 0xFFFF → s.arg1.toNat = 0 ∨ 30 < s.arg1.toNat →
      exec .serRd s = .next (ended (some .cfgCount) s)) ∧
    (s.ctrl.en = true → s.slave.toNat ≤ 62 → s.arg0.toNat ≤ 0xFFFF → 1 ≤ s.arg1.toNat → s.arg1.toNat ≤ 30 →
      BuiltRequest s
        [s.slave, 0x03#8, highByte s.arg0.toNat, lowByte s.arg0.toNat, 0x00#8, lowByte s.arg1.toNat]
        .read s.arg1.toNat (exec .serRd s))

/-- R111, with R68's layout and R109's commit. -/
def Obligations.SerWr1BuildsAWriteRequest : Prop :=
  encode .serWr1 = 0x00000022#32 ∧ ∀ s : State,
    (s.ctrl.en = false → exec .serWr1 s = .next (ended (some .cfgDisconnected) s)) ∧
    (s.ctrl.en = true → 62 < s.slave.toNat → exec .serWr1 s = .next (ended (some .cfgAddr) s)) ∧
    (s.ctrl.en = true → s.slave.toNat ≤ 62 → 0xFFFF < s.arg0.toNat ∨ 0xFFFF < s.arg1.toNat →
      exec .serWr1 s = .next (ended (some .cfgRange) s)) ∧
    (s.ctrl.en = true → s.slave.toNat ≤ 62 → s.arg0.toNat ≤ 0xFFFF → s.arg1.toNat ≤ 0xFFFF →
      BuiltRequest s
        [s.slave, 0x06#8, highByte s.arg0.toNat, lowByte s.arg0.toNat, highByte s.arg1.toNat, lowByte s.arg1.toNat]
        .write1 0 (exec .serWr1 s))

/-- R112, with R69's layout and R109's commit. -/
def Obligations.SerWrnBuildsAWriteRequest : Prop :=
  encode .serWrn = 0x00000023#32 ∧ ∀ s : State,
    (s.ctrl.en = false → exec .serWrn s = .next (ended (some .cfgDisconnected) s)) ∧
    (s.ctrl.en = true → 62 < s.slave.toNat → exec .serWrn s = .next (ended (some .cfgAddr) s)) ∧
    (s.ctrl.en = true → s.slave.toNat ≤ 62 → 0xFFFF < s.arg0.toNat →
      exec .serWrn s = .next (ended (some .cfgRange) s)) ∧
    (s.ctrl.en = true → s.slave.toNat ≤ 62 → s.arg0.toNat ≤ 0xFFFF → s.arg1.toNat = 0 ∨ 30 < s.arg1.toNat →
      exec .serWrn s = .next (ended (some .cfgCount) s)) ∧
    (s.ctrl.en = true → s.slave.toNat ≤ 62 → s.arg0.toNat ≤ 0xFFFF → 1 ≤ s.arg1.toNat → s.arg1.toNat ≤ 30 →
      ∀ vs : List Half, vs.length = s.arg1.toNat → StartsWith s.val vs →
        BuiltRequest s
          ([s.slave, 0x10#8, highByte s.arg0.toNat, lowByte s.arg0.toNat, 0x00#8, lowByte s.arg1.toNat,
            BitVec.ofNat 8 (2 * s.arg1.toNat)] ++ wireWords vs)
          .writeN s.arg1.toNat (exec .serWrn s))

/-! ## The parser -/

/-- R124: the checks of PARSE before the frame is looked at, in order; CRCOK ← 0 is kept. -/
def Obligations.ParseChecksBeforeTheFrame : Prop :=
  ∀ s : State,
    (s.ctrl.en = false →
      exec .parse s = .next (ended (some .cfgDisconnected) { s with status := { s.status with crcok := false } })) ∧
    (s.ctrl.en = true → s.exp.fc = .none →
      exec .parse s = .next (ended (some .cfgNoExp) { s with status := { s.status with crcok := false } })) ∧
    (s.ctrl.en = true → s.exp.fc ≠ .none → s.rxlen.toNat < rxNeed s →
      exec .parse s = .next (ended (some .commShort) { s with status := { s.status with crcok := false } }))

/-- R124: the checks of PARSE on a complete frame, address, function code, byte count, CRC, in that order; record(f) is
kept. -/
def Obligations.ParseChecksTheFrame : Prop :=
  ∀ (s : State) (f : List Byte), s.ctrl.en = true → s.exp.fc ≠ .none → rxNeed s ≤ s.rxlen.toNat → Received s f →
    (f.getD 0 0#8 ≠ s.exp.addr → exec .parse s = .next (ended (some .protoAddr) (recorded f s))) ∧
    (f.getD 0 0#8 = s.exp.addr → f.getD 1 0#8 ≠ s.exp.fc.code →
      exec .parse s = .next (ended (some .protoFc) (recorded f s))) ∧
    (f.getD 0 0#8 = s.exp.addr → f.getD 1 0#8 = s.exp.fc.code → s.exp.fc = .read →
      (f.getD 2 0#8).toNat ≠ 2 * s.exp.qty.toNat →
      exec .parse s = .next (ended (some .protoBcnt) (recorded f s))) ∧
    (f.getD 0 0#8 = s.exp.addr → f.getD 1 0#8 = s.exp.fc.code →
      (s.exp.fc = .read → (f.getD 2 0#8).toNat = 2 * s.exp.qty.toNat) → computedCrc f ≠ carriedCrc f →
      exec .parse s = .next (ended (some .protoCrc) (recorded f s)))

/-- R124, R126: PARSE of a valid 0x03 response decodes QTY big-endian words into RDAT. -/
def Obligations.ParseDecodesAReadResponse : Prop :=
  ∀ (s : State) (f : List Byte), Inv s → s.ctrl.en = true → s.exp.fc = .read → rxNeed s ≤ s.rxlen.toNat →
    Received s f → f.getD 0 0#8 = s.exp.addr → f.getD 1 0#8 = 0x03#8 →
    (f.getD 2 0#8).toNat = 2 * s.exp.qty.toNat → computedCrc f = carriedCrc f →
    ∃ rd : Vector Half 30, exec .parse s = .next (ended none { recorded f s with rdat := rd }) ∧
      (∀ k, k < s.exp.qty.toNat →
        rd[k]? = some (BitVec.ofNat 16 (256 * (f.getD (3 + 2 * k) 0#8).toNat + (f.getD (4 + 2 * k) 0#8).toNat))) ∧
      SameFrom s.exp.qty.toNat rd s.rdat

/-- R124, R127: PARSE of a valid 0x06 or 0x10 echo puts its two words into RES0 and RES1 and compares nothing. -/
def Obligations.ParseDecodesAnEcho : Prop :=
  ∀ (s : State) (f : List Byte), s.ctrl.en = true →
    (s.exp.fc = .write1 ∧ f.getD 1 0#8 = 0x06#8) ∨ (s.exp.fc = .writeN ∧ f.getD 1 0#8 = 0x10#8) →
    8 ≤ s.rxlen.toNat → Received s f → f.getD 0 0#8 = s.exp.addr → computedCrc f = carriedCrc f →
    exec .parse s = .next (ended none { recorded f s with
      res0 := BitVec.ofNat 32 (256 * (f.getD 2 0#8).toNat + (f.getD 3 0#8).toNat)
      res1 := BitVec.ofNat 32 (256 * (f.getD 4 0#8).toNat + (f.getD 5 0#8).toNat) })

/-- §8, R124: "not a silently-returned wrong value". PARSE reports no error only of a frame that was whole, carried the
expected address, function code and byte count, and a correct CRC. -/
def Obligations.AcceptedResponseMatchesTheExpectation : Prop :=
  ∀ (s t : State), exec .parse s = .next t → t.status.error = none →
    s.ctrl.en = true ∧ s.exp.fc ≠ .none ∧ rxNeed s ≤ s.rxlen.toNat ∧ t.status.crcok = true ∧
    ∀ f, Received s f → f.getD 0 0#8 = s.exp.addr ∧ f.getD 1 0#8 = s.exp.fc.code ∧
      (s.exp.fc = .read → (f.getD 2 0#8).toNat = 2 * s.exp.qty.toNat) ∧ computedCrc f = carriedCrc f

/-- R128 (g): PARSE does not consume the frame: repeated, it gives the same result. -/
def Obligations.ParseCanBeRepeated : Prop :=
  ∀ (s t : State), exec .parse s = .next t → exec .parse t = .next t

/-- R130. -/
def Obligations.ParseRawChecksOnlyTheCrc : Prop :=
  encode .parseRaw = 0x00000031#32 ∧ ∀ s : State,
    (s.rxlen.toNat < 4 →
      exec .parseRaw s = .next (ended (some .commShort) { s with status := { s.status with crcok := false } })) ∧
    ∀ f, Received s f → 4 ≤ f.length →
      (computedCrc f ≠ carriedCrc f → exec .parseRaw s = .next (ended (some .protoCrc) (recorded f s))) ∧
      (computedCrc f = carriedCrc f → exec .parseRaw s = .next (ended none (recorded f s)))

/-! ## Whole exchanges -/

/-- R92, R130: a frame SER_APPEND built, pushed back byte for byte, passes PARSE_RAW. R130 says so of every SER_* command, but
after SER_RD and SER_WRN the push of R120 and R121 can refuse the frame's tail; the model follows them (log entry 14). -/
def Obligations.AppendedFrameLoopsBack : Prop :=
  ∀ s : State, 2 ≤ s.txlen.toNat → s.txlen.toNat ≤ 258 →
    ∃ t u, exec .serAppend s = .next t ∧ exec .parseRaw (pushAll (t.txbuf.toList.take t.txlen.toNat) t) = .next u ∧
      u.status.error = none ∧ u.status.crcok = true ∧ u.status.rxovf = false ∧ u.rxlen = t.txlen

/-- R110, R121, R124, R126: SER_RD, then the device's response with any `qty` words pushed byte by byte, then PARSE gives
back exactly those words. -/
def Obligations.ReadExchangeReturnsTheWords : Prop :=
  ∀ (s : State) (words : List Half), s.ctrl.en = true → s.slave.toNat ≤ 62 → s.arg0.toNat ≤ 0xFFFF →
    1 ≤ s.arg1.toNat → s.arg1.toNat ≤ 30 → words.length = s.arg1.toNat →
    ∃ t u, exec .serRd s = .next t ∧
      exec .parse (pushAll (framed ([s.slave, 0x03#8, BitVec.ofNat 8 (2 * words.length)] ++ wireWords words)) t) = .next u ∧
      u.status.error = none ∧ u.status.crcok = true ∧ u.status.rxovf = false ∧
      StartsWith u.rdat words ∧ SameFrom words.length u.rdat s.rdat

/-- R111, R112, R121, R124, R127: a write request, then its 8-byte echo pushed byte by byte, then PARSE gives the request's two
operands in RES0 and RES1. -/
def Obligations.WriteExchangeReturnsTheEcho : Prop :=
  ∀ s : State, s.ctrl.en = true → s.slave.toNat ≤ 62 → s.arg0.toNat ≤ 0xFFFF →
    (s.arg1.toNat ≤ 0xFFFF → ∃ t u, exec .serWr1 s = .next t ∧
      exec .parse (pushAll (framed [s.slave, 0x06#8, highByte s.arg0.toNat, lowByte s.arg0.toNat,
        highByte s.arg1.toNat, lowByte s.arg1.toNat]) t) = .next u ∧
      u.status.error = none ∧ u.status.crcok = true ∧ u.res0 = s.arg0 ∧ u.res1 = s.arg1) ∧
    (1 ≤ s.arg1.toNat → s.arg1.toNat ≤ 30 → ∃ t u, exec .serWrn s = .next t ∧
      exec .parse (pushAll (framed [s.slave, 0x10#8, highByte s.arg0.toNat, lowByte s.arg0.toNat,
        highByte s.arg1.toNat, lowByte s.arg1.toNat]) t) = .next u ∧
      u.status.error = none ∧ u.status.crcok = true ∧ u.res0 = s.arg0 ∧ u.res1 = s.arg1)
end

