-- ==== Sys2Proof/Laws/State.lean ====
section
/-!
SUPPORT. Laws/State.lean: one lemma per field per update, each true by rfl, so that no later proof unfolds a record
update. The updates are the shared operations that write State.
-/

namespace Sys2Proof.Machine

/-! ### finish -/

@[simp] theorem finish_eng (r : Option CmdError) (s : State) : (finish r s).eng = .idle := rfl
@[simp] theorem finish_cmdr (r : Option CmdError) (s : State) : (finish r s).cmdr = s.cmdr := rfl
@[simp] theorem finish_ctrl (r : Option CmdError) (s : State) : (finish r s).ctrl = s.ctrl := rfl
@[simp] theorem finish_status (r : Option CmdError) (s : State) : (finish r s).status = { s.status with done := true, error := r } := rfl
@[simp] theorem finish_slave (r : Option CmdError) (s : State) : (finish r s).slave = s.slave := rfl
@[simp] theorem finish_arg0 (r : Option CmdError) (s : State) : (finish r s).arg0 = s.arg0 := rfl
@[simp] theorem finish_arg1 (r : Option CmdError) (s : State) : (finish r s).arg1 = s.arg1 := rfl
@[simp] theorem finish_res0 (r : Option CmdError) (s : State) : (finish r s).res0 = s.res0 := rfl
@[simp] theorem finish_res1 (r : Option CmdError) (s : State) : (finish r s).res1 = s.res1 := rfl
@[simp] theorem finish_crc (r : Option CmdError) (s : State) : (finish r s).crc = s.crc := rfl
@[simp] theorem finish_txlen (r : Option CmdError) (s : State) : (finish r s).txlen = s.txlen := rfl
@[simp] theorem finish_rxlen (r : Option CmdError) (s : State) : (finish r s).rxlen = s.rxlen := rfl
@[simp] theorem finish_exp (r : Option CmdError) (s : State) : (finish r s).exp = s.exp := rfl
@[simp] theorem finish_rxhdr (r : Option CmdError) (s : State) : (finish r s).rxhdr = s.rxhdr := rfl
@[simp] theorem finish_rxcrc (r : Option CmdError) (s : State) : (finish r s).rxcrc = s.rxcrc := rfl
@[simp] theorem finish_pllen (r : Option CmdError) (s : State) : (finish r s).pllen = s.pllen := rfl
@[simp] theorem finish_val (r : Option CmdError) (s : State) : (finish r s).val = s.val := rfl
@[simp] theorem finish_rdat (r : Option CmdError) (s : State) : (finish r s).rdat = s.rdat := rfl
@[simp] theorem finish_txbuf (r : Option CmdError) (s : State) : (finish r s).txbuf = s.txbuf := rfl
@[simp] theorem finish_rxbuf (r : Option CmdError) (s : State) : (finish r s).rxbuf = s.rxbuf := rfl
@[simp] theorem finish_inputs (r : Option CmdError) (s : State) : (finish r s).inputs = s.inputs := rfl
@[simp] theorem finish_resp (r : Option CmdError) (s : State) : (finish r s).resp = s.resp := rfl
@[simp] theorem finish_draws (r : Option CmdError) (s : State) : (finish r s).draws = s.draws := rfl

/-! ### acknowledge -/

@[simp] theorem acknowledge_eng (v : Word) (s : State) : (acknowledge v s).eng = s.eng := rfl
@[simp] theorem acknowledge_cmdr (v : Word) (s : State) : (acknowledge v s).cmdr = s.cmdr := rfl
@[simp] theorem acknowledge_ctrl (v : Word) (s : State) : (acknowledge v s).ctrl = s.ctrl := rfl
@[simp] theorem acknowledge_status (v : Word) (s : State) : (acknowledge v s).status = { s.status with done := s.status.done && !v.getLsbD 1, haz := s.status.haz && !v.getLsbD 3, rxovf := s.status.rxovf && !v.getLsbD 4 } := rfl
@[simp] theorem acknowledge_slave (v : Word) (s : State) : (acknowledge v s).slave = s.slave := rfl
@[simp] theorem acknowledge_arg0 (v : Word) (s : State) : (acknowledge v s).arg0 = s.arg0 := rfl
@[simp] theorem acknowledge_arg1 (v : Word) (s : State) : (acknowledge v s).arg1 = s.arg1 := rfl
@[simp] theorem acknowledge_res0 (v : Word) (s : State) : (acknowledge v s).res0 = s.res0 := rfl
@[simp] theorem acknowledge_res1 (v : Word) (s : State) : (acknowledge v s).res1 = s.res1 := rfl
@[simp] theorem acknowledge_crc (v : Word) (s : State) : (acknowledge v s).crc = s.crc := rfl
@[simp] theorem acknowledge_txlen (v : Word) (s : State) : (acknowledge v s).txlen = s.txlen := rfl
@[simp] theorem acknowledge_rxlen (v : Word) (s : State) : (acknowledge v s).rxlen = s.rxlen := rfl
@[simp] theorem acknowledge_exp (v : Word) (s : State) : (acknowledge v s).exp = s.exp := rfl
@[simp] theorem acknowledge_rxhdr (v : Word) (s : State) : (acknowledge v s).rxhdr = s.rxhdr := rfl
@[simp] theorem acknowledge_rxcrc (v : Word) (s : State) : (acknowledge v s).rxcrc = s.rxcrc := rfl
@[simp] theorem acknowledge_pllen (v : Word) (s : State) : (acknowledge v s).pllen = s.pllen := rfl
@[simp] theorem acknowledge_val (v : Word) (s : State) : (acknowledge v s).val = s.val := rfl
@[simp] theorem acknowledge_rdat (v : Word) (s : State) : (acknowledge v s).rdat = s.rdat := rfl
@[simp] theorem acknowledge_txbuf (v : Word) (s : State) : (acknowledge v s).txbuf = s.txbuf := rfl
@[simp] theorem acknowledge_rxbuf (v : Word) (s : State) : (acknowledge v s).rxbuf = s.rxbuf := rfl
@[simp] theorem acknowledge_inputs (v : Word) (s : State) : (acknowledge v s).inputs = s.inputs := rfl
@[simp] theorem acknowledge_resp (v : Word) (s : State) : (acknowledge v s).resp = s.resp := rfl
@[simp] theorem acknowledge_draws (v : Word) (s : State) : (acknowledge v s).draws = s.draws := rfl

/-! ### flushRx -/

@[simp] theorem flushRx_eng (s : State) : (flushRx s).eng = s.eng := rfl
@[simp] theorem flushRx_cmdr (s : State) : (flushRx s).cmdr = s.cmdr := rfl
@[simp] theorem flushRx_ctrl (s : State) : (flushRx s).ctrl = s.ctrl := rfl
@[simp] theorem flushRx_status (s : State) : (flushRx s).status = { s.status with rxovf := false } := rfl
@[simp] theorem flushRx_slave (s : State) : (flushRx s).slave = s.slave := rfl
@[simp] theorem flushRx_arg0 (s : State) : (flushRx s).arg0 = s.arg0 := rfl
@[simp] theorem flushRx_arg1 (s : State) : (flushRx s).arg1 = s.arg1 := rfl
@[simp] theorem flushRx_res0 (s : State) : (flushRx s).res0 = s.res0 := rfl
@[simp] theorem flushRx_res1 (s : State) : (flushRx s).res1 = s.res1 := rfl
@[simp] theorem flushRx_crc (s : State) : (flushRx s).crc = s.crc := rfl
@[simp] theorem flushRx_txlen (s : State) : (flushRx s).txlen = s.txlen := rfl
@[simp] theorem flushRx_rxlen (s : State) : (flushRx s).rxlen = 0#9 := rfl
@[simp] theorem flushRx_exp (s : State) : (flushRx s).exp = s.exp := rfl
@[simp] theorem flushRx_rxhdr (s : State) : (flushRx s).rxhdr = s.rxhdr := rfl
@[simp] theorem flushRx_rxcrc (s : State) : (flushRx s).rxcrc = s.rxcrc := rfl
@[simp] theorem flushRx_pllen (s : State) : (flushRx s).pllen = s.pllen := rfl
@[simp] theorem flushRx_val (s : State) : (flushRx s).val = s.val := rfl
@[simp] theorem flushRx_rdat (s : State) : (flushRx s).rdat = s.rdat := rfl
@[simp] theorem flushRx_txbuf (s : State) : (flushRx s).txbuf = s.txbuf := rfl
@[simp] theorem flushRx_rxbuf (s : State) : (flushRx s).rxbuf = s.rxbuf := rfl
@[simp] theorem flushRx_inputs (s : State) : (flushRx s).inputs = s.inputs := rfl
@[simp] theorem flushRx_resp (s : State) : (flushRx s).resp = s.resp := rfl
@[simp] theorem flushRx_draws (s : State) : (flushRx s).draws = s.draws := rfl

/-! ### acceptCommand -/

@[simp] theorem acceptCommand_eng (w : Word) (s : State) : (acceptCommand w s).eng = .exec (Config.cmdLatency s.draws) := rfl
@[simp] theorem acceptCommand_cmdr (w : Word) (s : State) : (acceptCommand w s).cmdr = w := rfl
@[simp] theorem acceptCommand_ctrl (w : Word) (s : State) : (acceptCommand w s).ctrl = s.ctrl := rfl
@[simp] theorem acceptCommand_status (w : Word) (s : State) : (acceptCommand w s).status = { s.status with done := false } := rfl
@[simp] theorem acceptCommand_slave (w : Word) (s : State) : (acceptCommand w s).slave = s.slave := rfl
@[simp] theorem acceptCommand_arg0 (w : Word) (s : State) : (acceptCommand w s).arg0 = s.arg0 := rfl
@[simp] theorem acceptCommand_arg1 (w : Word) (s : State) : (acceptCommand w s).arg1 = s.arg1 := rfl
@[simp] theorem acceptCommand_res0 (w : Word) (s : State) : (acceptCommand w s).res0 = s.res0 := rfl
@[simp] theorem acceptCommand_res1 (w : Word) (s : State) : (acceptCommand w s).res1 = s.res1 := rfl
@[simp] theorem acceptCommand_crc (w : Word) (s : State) : (acceptCommand w s).crc = s.crc := rfl
@[simp] theorem acceptCommand_txlen (w : Word) (s : State) : (acceptCommand w s).txlen = s.txlen := rfl
@[simp] theorem acceptCommand_rxlen (w : Word) (s : State) : (acceptCommand w s).rxlen = s.rxlen := rfl
@[simp] theorem acceptCommand_exp (w : Word) (s : State) : (acceptCommand w s).exp = s.exp := rfl
@[simp] theorem acceptCommand_rxhdr (w : Word) (s : State) : (acceptCommand w s).rxhdr = s.rxhdr := rfl
@[simp] theorem acceptCommand_rxcrc (w : Word) (s : State) : (acceptCommand w s).rxcrc = s.rxcrc := rfl
@[simp] theorem acceptCommand_pllen (w : Word) (s : State) : (acceptCommand w s).pllen = s.pllen := rfl
@[simp] theorem acceptCommand_val (w : Word) (s : State) : (acceptCommand w s).val = s.val := rfl
@[simp] theorem acceptCommand_rdat (w : Word) (s : State) : (acceptCommand w s).rdat = s.rdat := rfl
@[simp] theorem acceptCommand_txbuf (w : Word) (s : State) : (acceptCommand w s).txbuf = s.txbuf := rfl
@[simp] theorem acceptCommand_rxbuf (w : Word) (s : State) : (acceptCommand w s).rxbuf = s.rxbuf := rfl
@[simp] theorem acceptCommand_inputs (w : Word) (s : State) : (acceptCommand w s).inputs = s.inputs := rfl
@[simp] theorem acceptCommand_resp (w : Word) (s : State) : (acceptCommand w s).resp = s.resp := rfl
@[simp] theorem acceptCommand_draws (w : Word) (s : State) : (acceptCommand w s).draws = s.draws + 1 := rfl

/-! ### putCrc -/

@[simp] theorem putCrc_eng (c : Half) (s : State) : (putCrc c s).eng = s.eng := rfl
@[simp] theorem putCrc_cmdr (c : Half) (s : State) : (putCrc c s).cmdr = s.cmdr := rfl
@[simp] theorem putCrc_ctrl (c : Half) (s : State) : (putCrc c s).ctrl = s.ctrl := rfl
@[simp] theorem putCrc_status (c : Half) (s : State) : (putCrc c s).status = s.status := rfl
@[simp] theorem putCrc_slave (c : Half) (s : State) : (putCrc c s).slave = s.slave := rfl
@[simp] theorem putCrc_arg0 (c : Half) (s : State) : (putCrc c s).arg0 = s.arg0 := rfl
@[simp] theorem putCrc_arg1 (c : Half) (s : State) : (putCrc c s).arg1 = s.arg1 := rfl
@[simp] theorem putCrc_res0 (c : Half) (s : State) : (putCrc c s).res0 = c.setWidth 32 := rfl
@[simp] theorem putCrc_res1 (c : Half) (s : State) : (putCrc c s).res1 = s.res1 := rfl
@[simp] theorem putCrc_crc (c : Half) (s : State) : (putCrc c s).crc = c := rfl
@[simp] theorem putCrc_txlen (c : Half) (s : State) : (putCrc c s).txlen = s.txlen := rfl
@[simp] theorem putCrc_rxlen (c : Half) (s : State) : (putCrc c s).rxlen = s.rxlen := rfl
@[simp] theorem putCrc_exp (c : Half) (s : State) : (putCrc c s).exp = s.exp := rfl
@[simp] theorem putCrc_rxhdr (c : Half) (s : State) : (putCrc c s).rxhdr = s.rxhdr := rfl
@[simp] theorem putCrc_rxcrc (c : Half) (s : State) : (putCrc c s).rxcrc = s.rxcrc := rfl
@[simp] theorem putCrc_pllen (c : Half) (s : State) : (putCrc c s).pllen = s.pllen := rfl
@[simp] theorem putCrc_val (c : Half) (s : State) : (putCrc c s).val = s.val := rfl
@[simp] theorem putCrc_rdat (c : Half) (s : State) : (putCrc c s).rdat = s.rdat := rfl
@[simp] theorem putCrc_txbuf (c : Half) (s : State) : (putCrc c s).txbuf = s.txbuf := rfl
@[simp] theorem putCrc_rxbuf (c : Half) (s : State) : (putCrc c s).rxbuf = s.rxbuf := rfl
@[simp] theorem putCrc_inputs (c : Half) (s : State) : (putCrc c s).inputs = s.inputs := rfl
@[simp] theorem putCrc_resp (c : Half) (s : State) : (putCrc c s).resp = s.resp := rfl
@[simp] theorem putCrc_draws (c : Half) (s : State) : (putCrc c s).draws = s.draws := rfl

/-! ### commit -/

@[simp] theorem commit_eng (f : List Byte) (fc : ExpFc) (q : BitVec 5) (s : State) : (commit f fc q s).eng = s.eng := rfl
@[simp] theorem commit_cmdr (f : List Byte) (fc : ExpFc) (q : BitVec 5) (s : State) : (commit f fc q s).cmdr = s.cmdr := rfl
@[simp] theorem commit_ctrl (f : List Byte) (fc : ExpFc) (q : BitVec 5) (s : State) : (commit f fc q s).ctrl = s.ctrl := rfl
@[simp] theorem commit_status (f : List Byte) (fc : ExpFc) (q : BitVec 5) (s : State) : (commit f fc q s).status = { s.status with rxovf := false } := rfl
@[simp] theorem commit_slave (f : List Byte) (fc : ExpFc) (q : BitVec 5) (s : State) : (commit f fc q s).slave = s.slave := rfl
@[simp] theorem commit_arg0 (f : List Byte) (fc : ExpFc) (q : BitVec 5) (s : State) : (commit f fc q s).arg0 = s.arg0 := rfl
@[simp] theorem commit_arg1 (f : List Byte) (fc : ExpFc) (q : BitVec 5) (s : State) : (commit f fc q s).arg1 = s.arg1 := rfl
@[simp] theorem commit_res0 (f : List Byte) (fc : ExpFc) (q : BitVec 5) (s : State) : (commit f fc q s).res0 = s.res0 := rfl
@[simp] theorem commit_res1 (f : List Byte) (fc : ExpFc) (q : BitVec 5) (s : State) : (commit f fc q s).res1 = s.res1 := rfl
@[simp] theorem commit_crc (f : List Byte) (fc : ExpFc) (q : BitVec 5) (s : State) : (commit f fc q s).crc = frameRecv f := rfl
@[simp] theorem commit_txlen (f : List Byte) (fc : ExpFc) (q : BitVec 5) (s : State) : (commit f fc q s).txlen = BitVec.ofNat 9 f.length := rfl
@[simp] theorem commit_rxlen (f : List Byte) (fc : ExpFc) (q : BitVec 5) (s : State) : (commit f fc q s).rxlen = 0#9 := rfl
@[simp] theorem commit_exp (f : List Byte) (fc : ExpFc) (q : BitVec 5) (s : State) : (commit f fc q s).exp = { addr := s.slave, fc := fc, qty := q } := rfl
@[simp] theorem commit_rxhdr (f : List Byte) (fc : ExpFc) (q : BitVec 5) (s : State) : (commit f fc q s).rxhdr = s.rxhdr := rfl
@[simp] theorem commit_rxcrc (f : List Byte) (fc : ExpFc) (q : BitVec 5) (s : State) : (commit f fc q s).rxcrc = s.rxcrc := rfl
@[simp] theorem commit_pllen (f : List Byte) (fc : ExpFc) (q : BitVec 5) (s : State) : (commit f fc q s).pllen = s.pllen := rfl
@[simp] theorem commit_val (f : List Byte) (fc : ExpFc) (q : BitVec 5) (s : State) : (commit f fc q s).val = s.val := rfl
@[simp] theorem commit_rdat (f : List Byte) (fc : ExpFc) (q : BitVec 5) (s : State) : (commit f fc q s).rdat = s.rdat := rfl
@[simp] theorem commit_txbuf (f : List Byte) (fc : ExpFc) (q : BitVec 5) (s : State) : (commit f fc q s).txbuf = storeAt s.txbuf 0 f := rfl
@[simp] theorem commit_rxbuf (f : List Byte) (fc : ExpFc) (q : BitVec 5) (s : State) : (commit f fc q s).rxbuf = s.rxbuf := rfl
@[simp] theorem commit_inputs (f : List Byte) (fc : ExpFc) (q : BitVec 5) (s : State) : (commit f fc q s).inputs = s.inputs := rfl
@[simp] theorem commit_resp (f : List Byte) (fc : ExpFc) (q : BitVec 5) (s : State) : (commit f fc q s).resp = s.resp := rfl
@[simp] theorem commit_draws (f : List Byte) (fc : ExpFc) (q : BitVec 5) (s : State) : (commit f fc q s).draws = s.draws := rfl

/-! ### record -/

@[simp] theorem record_eng (f : List Byte) (s : State) : (record f s).eng = s.eng := rfl
@[simp] theorem record_cmdr (f : List Byte) (s : State) : (record f s).cmdr = s.cmdr := rfl
@[simp] theorem record_ctrl (f : List Byte) (s : State) : (record f s).ctrl = s.ctrl := rfl
@[simp] theorem record_status (f : List Byte) (s : State) : (record f s).status = { s.status with crcok := frameOk f } := rfl
@[simp] theorem record_slave (f : List Byte) (s : State) : (record f s).slave = s.slave := rfl
@[simp] theorem record_arg0 (f : List Byte) (s : State) : (record f s).arg0 = s.arg0 := rfl
@[simp] theorem record_arg1 (f : List Byte) (s : State) : (record f s).arg1 = s.arg1 := rfl
@[simp] theorem record_res0 (f : List Byte) (s : State) : (record f s).res0 = s.res0 := rfl
@[simp] theorem record_res1 (f : List Byte) (s : State) : (record f s).res1 = s.res1 := rfl
@[simp] theorem record_crc (f : List Byte) (s : State) : (record f s).crc = frameCalc f := rfl
@[simp] theorem record_txlen (f : List Byte) (s : State) : (record f s).txlen = s.txlen := rfl
@[simp] theorem record_rxlen (f : List Byte) (s : State) : (record f s).rxlen = s.rxlen := rfl
@[simp] theorem record_exp (f : List Byte) (s : State) : (record f s).exp = s.exp := rfl
@[simp] theorem record_rxhdr (f : List Byte) (s : State) : (record f s).rxhdr = { addr := byteAt f 0, fc := byteAt f 1 } := rfl
@[simp] theorem record_rxcrc (f : List Byte) (s : State) : (record f s).rxcrc = { computed := frameCalc f, received := frameRecv f } := rfl
@[simp] theorem record_pllen (f : List Byte) (s : State) : (record f s).pllen = BitVec.ofNat 9 (f.length - 4) := rfl
@[simp] theorem record_val (f : List Byte) (s : State) : (record f s).val = s.val := rfl
@[simp] theorem record_rdat (f : List Byte) (s : State) : (record f s).rdat = s.rdat := rfl
@[simp] theorem record_txbuf (f : List Byte) (s : State) : (record f s).txbuf = s.txbuf := rfl
@[simp] theorem record_rxbuf (f : List Byte) (s : State) : (record f s).rxbuf = s.rxbuf := rfl
@[simp] theorem record_inputs (f : List Byte) (s : State) : (record f s).inputs = s.inputs := rfl
@[simp] theorem record_resp (f : List Byte) (s : State) : (record f s).resp = s.resp := rfl
@[simp] theorem record_draws (f : List Byte) (s : State) : (record f s).draws = s.draws := rfl

/-! ### clearCrcok -/

@[simp] theorem clearCrcok_eng (s : State) : (clearCrcok s).eng = s.eng := rfl
@[simp] theorem clearCrcok_cmdr (s : State) : (clearCrcok s).cmdr = s.cmdr := rfl
@[simp] theorem clearCrcok_ctrl (s : State) : (clearCrcok s).ctrl = s.ctrl := rfl
@[simp] theorem clearCrcok_status (s : State) : (clearCrcok s).status = { s.status with crcok := false } := rfl
@[simp] theorem clearCrcok_slave (s : State) : (clearCrcok s).slave = s.slave := rfl
@[simp] theorem clearCrcok_arg0 (s : State) : (clearCrcok s).arg0 = s.arg0 := rfl
@[simp] theorem clearCrcok_arg1 (s : State) : (clearCrcok s).arg1 = s.arg1 := rfl
@[simp] theorem clearCrcok_res0 (s : State) : (clearCrcok s).res0 = s.res0 := rfl
@[simp] theorem clearCrcok_res1 (s : State) : (clearCrcok s).res1 = s.res1 := rfl
@[simp] theorem clearCrcok_crc (s : State) : (clearCrcok s).crc = s.crc := rfl
@[simp] theorem clearCrcok_txlen (s : State) : (clearCrcok s).txlen = s.txlen := rfl
@[simp] theorem clearCrcok_rxlen (s : State) : (clearCrcok s).rxlen = s.rxlen := rfl
@[simp] theorem clearCrcok_exp (s : State) : (clearCrcok s).exp = s.exp := rfl
@[simp] theorem clearCrcok_rxhdr (s : State) : (clearCrcok s).rxhdr = s.rxhdr := rfl
@[simp] theorem clearCrcok_rxcrc (s : State) : (clearCrcok s).rxcrc = s.rxcrc := rfl
@[simp] theorem clearCrcok_pllen (s : State) : (clearCrcok s).pllen = s.pllen := rfl
@[simp] theorem clearCrcok_val (s : State) : (clearCrcok s).val = s.val := rfl
@[simp] theorem clearCrcok_rdat (s : State) : (clearCrcok s).rdat = s.rdat := rfl
@[simp] theorem clearCrcok_txbuf (s : State) : (clearCrcok s).txbuf = s.txbuf := rfl
@[simp] theorem clearCrcok_rxbuf (s : State) : (clearCrcok s).rxbuf = s.rxbuf := rfl
@[simp] theorem clearCrcok_inputs (s : State) : (clearCrcok s).inputs = s.inputs := rfl
@[simp] theorem clearCrcok_resp (s : State) : (clearCrcok s).resp = s.resp := rfl
@[simp] theorem clearCrcok_draws (s : State) : (clearCrcok s).draws = s.draws := rfl

/-! ### decodeRead -/

@[simp] theorem decodeRead_eng (f : List Byte) (s : State) : (decodeRead f s).eng = s.eng := rfl
@[simp] theorem decodeRead_cmdr (f : List Byte) (s : State) : (decodeRead f s).cmdr = s.cmdr := rfl
@[simp] theorem decodeRead_ctrl (f : List Byte) (s : State) : (decodeRead f s).ctrl = s.ctrl := rfl
@[simp] theorem decodeRead_status (f : List Byte) (s : State) : (decodeRead f s).status = s.status := rfl
@[simp] theorem decodeRead_slave (f : List Byte) (s : State) : (decodeRead f s).slave = s.slave := rfl
@[simp] theorem decodeRead_arg0 (f : List Byte) (s : State) : (decodeRead f s).arg0 = s.arg0 := rfl
@[simp] theorem decodeRead_arg1 (f : List Byte) (s : State) : (decodeRead f s).arg1 = s.arg1 := rfl
@[simp] theorem decodeRead_res0 (f : List Byte) (s : State) : (decodeRead f s).res0 = s.res0 := rfl
@[simp] theorem decodeRead_res1 (f : List Byte) (s : State) : (decodeRead f s).res1 = s.res1 := rfl
@[simp] theorem decodeRead_crc (f : List Byte) (s : State) : (decodeRead f s).crc = s.crc := rfl
@[simp] theorem decodeRead_txlen (f : List Byte) (s : State) : (decodeRead f s).txlen = s.txlen := rfl
@[simp] theorem decodeRead_rxlen (f : List Byte) (s : State) : (decodeRead f s).rxlen = s.rxlen := rfl
@[simp] theorem decodeRead_exp (f : List Byte) (s : State) : (decodeRead f s).exp = s.exp := rfl
@[simp] theorem decodeRead_rxhdr (f : List Byte) (s : State) : (decodeRead f s).rxhdr = s.rxhdr := rfl
@[simp] theorem decodeRead_rxcrc (f : List Byte) (s : State) : (decodeRead f s).rxcrc = s.rxcrc := rfl
@[simp] theorem decodeRead_pllen (f : List Byte) (s : State) : (decodeRead f s).pllen = s.pllen := rfl
@[simp] theorem decodeRead_val (f : List Byte) (s : State) : (decodeRead f s).val = s.val := rfl
@[simp] theorem decodeRead_rdat (f : List Byte) (s : State) : (decodeRead f s).rdat = storeAt s.rdat 0 (readWords f s.exp.qty.toNat) := rfl
@[simp] theorem decodeRead_txbuf (f : List Byte) (s : State) : (decodeRead f s).txbuf = s.txbuf := rfl
@[simp] theorem decodeRead_rxbuf (f : List Byte) (s : State) : (decodeRead f s).rxbuf = s.rxbuf := rfl
@[simp] theorem decodeRead_inputs (f : List Byte) (s : State) : (decodeRead f s).inputs = s.inputs := rfl
@[simp] theorem decodeRead_resp (f : List Byte) (s : State) : (decodeRead f s).resp = s.resp := rfl
@[simp] theorem decodeRead_draws (f : List Byte) (s : State) : (decodeRead f s).draws = s.draws := rfl

/-! ### decodeEcho -/

@[simp] theorem decodeEcho_eng (f : List Byte) (s : State) : (decodeEcho f s).eng = s.eng := rfl
@[simp] theorem decodeEcho_cmdr (f : List Byte) (s : State) : (decodeEcho f s).cmdr = s.cmdr := rfl
@[simp] theorem decodeEcho_ctrl (f : List Byte) (s : State) : (decodeEcho f s).ctrl = s.ctrl := rfl
@[simp] theorem decodeEcho_status (f : List Byte) (s : State) : (decodeEcho f s).status = s.status := rfl
@[simp] theorem decodeEcho_slave (f : List Byte) (s : State) : (decodeEcho f s).slave = s.slave := rfl
@[simp] theorem decodeEcho_arg0 (f : List Byte) (s : State) : (decodeEcho f s).arg0 = s.arg0 := rfl
@[simp] theorem decodeEcho_arg1 (f : List Byte) (s : State) : (decodeEcho f s).arg1 = s.arg1 := rfl
@[simp] theorem decodeEcho_res0 (f : List Byte) (s : State) : (decodeEcho f s).res0 = (beHalf (byteAt f 2) (byteAt f 3)).setWidth 32 := rfl
@[simp] theorem decodeEcho_res1 (f : List Byte) (s : State) : (decodeEcho f s).res1 = (beHalf (byteAt f 4) (byteAt f 5)).setWidth 32 := rfl
@[simp] theorem decodeEcho_crc (f : List Byte) (s : State) : (decodeEcho f s).crc = s.crc := rfl
@[simp] theorem decodeEcho_txlen (f : List Byte) (s : State) : (decodeEcho f s).txlen = s.txlen := rfl
@[simp] theorem decodeEcho_rxlen (f : List Byte) (s : State) : (decodeEcho f s).rxlen = s.rxlen := rfl
@[simp] theorem decodeEcho_exp (f : List Byte) (s : State) : (decodeEcho f s).exp = s.exp := rfl
@[simp] theorem decodeEcho_rxhdr (f : List Byte) (s : State) : (decodeEcho f s).rxhdr = s.rxhdr := rfl
@[simp] theorem decodeEcho_rxcrc (f : List Byte) (s : State) : (decodeEcho f s).rxcrc = s.rxcrc := rfl
@[simp] theorem decodeEcho_pllen (f : List Byte) (s : State) : (decodeEcho f s).pllen = s.pllen := rfl
@[simp] theorem decodeEcho_val (f : List Byte) (s : State) : (decodeEcho f s).val = s.val := rfl
@[simp] theorem decodeEcho_rdat (f : List Byte) (s : State) : (decodeEcho f s).rdat = s.rdat := rfl
@[simp] theorem decodeEcho_txbuf (f : List Byte) (s : State) : (decodeEcho f s).txbuf = s.txbuf := rfl
@[simp] theorem decodeEcho_rxbuf (f : List Byte) (s : State) : (decodeEcho f s).rxbuf = s.rxbuf := rfl
@[simp] theorem decodeEcho_inputs (f : List Byte) (s : State) : (decodeEcho f s).inputs = s.inputs := rfl
@[simp] theorem decodeEcho_resp (f : List Byte) (s : State) : (decodeEcho f s).resp = s.resp := rfl
@[simp] theorem decodeEcho_draws (f : List Byte) (s : State) : (decodeEcho f s).draws = s.draws := rfl

/-! ### tick: one host cycle changes the wait only -/

@[simp] theorem tick_cmdr (s : State) : (tick s).cmdr = s.cmdr := by
  unfold tick; split <;> rfl
@[simp] theorem tick_ctrl (s : State) : (tick s).ctrl = s.ctrl := by
  unfold tick; split <;> rfl
@[simp] theorem tick_status (s : State) : (tick s).status = s.status := by
  unfold tick; split <;> rfl
@[simp] theorem tick_slave (s : State) : (tick s).slave = s.slave := by
  unfold tick; split <;> rfl
@[simp] theorem tick_arg0 (s : State) : (tick s).arg0 = s.arg0 := by
  unfold tick; split <;> rfl
@[simp] theorem tick_arg1 (s : State) : (tick s).arg1 = s.arg1 := by
  unfold tick; split <;> rfl
@[simp] theorem tick_res0 (s : State) : (tick s).res0 = s.res0 := by
  unfold tick; split <;> rfl
@[simp] theorem tick_res1 (s : State) : (tick s).res1 = s.res1 := by
  unfold tick; split <;> rfl
@[simp] theorem tick_crc (s : State) : (tick s).crc = s.crc := by
  unfold tick; split <;> rfl
@[simp] theorem tick_txlen (s : State) : (tick s).txlen = s.txlen := by
  unfold tick; split <;> rfl
@[simp] theorem tick_rxlen (s : State) : (tick s).rxlen = s.rxlen := by
  unfold tick; split <;> rfl
@[simp] theorem tick_exp (s : State) : (tick s).exp = s.exp := by
  unfold tick; split <;> rfl
@[simp] theorem tick_rxhdr (s : State) : (tick s).rxhdr = s.rxhdr := by
  unfold tick; split <;> rfl
@[simp] theorem tick_rxcrc (s : State) : (tick s).rxcrc = s.rxcrc := by
  unfold tick; split <;> rfl
@[simp] theorem tick_pllen (s : State) : (tick s).pllen = s.pllen := by
  unfold tick; split <;> rfl
@[simp] theorem tick_val (s : State) : (tick s).val = s.val := by
  unfold tick; split <;> rfl
@[simp] theorem tick_rdat (s : State) : (tick s).rdat = s.rdat := by
  unfold tick; split <;> rfl
@[simp] theorem tick_txbuf (s : State) : (tick s).txbuf = s.txbuf := by
  unfold tick; split <;> rfl
@[simp] theorem tick_rxbuf (s : State) : (tick s).rxbuf = s.rxbuf := by
  unfold tick; split <;> rfl
@[simp] theorem tick_inputs (s : State) : (tick s).inputs = s.inputs := by
  unfold tick; split <;> rfl
@[simp] theorem tick_resp (s : State) : (tick s).resp = s.resp := by
  unfold tick; split <;> rfl
@[simp] theorem tick_draws (s : State) : (tick s).draws = s.draws := by
  unfold tick; split <;> rfl

end Sys2Proof.Machine
end

