-- ==== Sys2Proof/Laws/Ops.lean ====
section
/-!
SUPPORT. Laws/Ops.lean: one lemma for each shared operation that says everything it can do; later proofs cite these
and do not unfold the operation.
-/

namespace Sys2Proof.Machine

/-! ## Arrays and byte sequences -/

/-- `storeAt` writes exactly the entries from `k` on that the sequence covers. -/
theorem storeAt_getElem {α : Type} {n : Nat} (xs : List α) (v : Vector α n) (k i : Nat) (hi : i < n) :
    (storeAt v k xs)[i] = if h : k ≤ i ∧ i < k + xs.length then xs[i - k]'(by omega) else v[i] := by
  induction xs generalizing v k with
  | nil => simp [storeAt]
  | cons x xs ih =>
    rw [storeAt, ih]
    by_cases h1 : i = k
    · subst h1
      rw [dif_neg (by omega), dif_pos (by simp)]
      simp
    · by_cases h2 : k + 1 ≤ i ∧ i < k + 1 + xs.length
      · rw [dif_pos h2, dif_pos (by simp only [List.length_cons]; omega)]
        rw [List.getElem_cons, dif_neg (by omega)]
        congr 1
      · rw [dif_neg h2, dif_neg (by simp only [List.length_cons]; omega)]
        rw [Vector.getElem_setIfInBounds_ne]
        omega

/-- Storing the same sequence twice is storing it once. -/
theorem storeAt_storeAt {α : Type} {n : Nat} (xs : List α) (v : Vector α n) (k : Nat) :
    storeAt (storeAt v k xs) k xs = storeAt v k xs := by
  apply Vector.ext
  intro i hi
  simp only [storeAt_getElem]
  split <;> rfl

@[simp] theorem length_firstEntries {α : Type} {m : Nat} (v : Vector α m) (n : Nat) :
    (firstEntries v n).length = min n m := by
  simp [firstEntries]

/-- The entries of `ARR[0..n-1]`. -/
theorem firstEntries_getElem {α : Type} {m : Nat} (v : Vector α m) (n i : Nat) (h : i < (firstEntries v n).length) :
    (firstEntries v n)[i] = v[i]'(by simp at h; omega) := by
  simp [firstEntries]

/-- A sequence that agrees with the array entry by entry is the array's beginning. -/
theorem firstEntries_eq {α : Type} {m : Nat} (v : Vector α m) (xs : List α) (h : xs.length ≤ m)
    (heq : ∀ i (hi : i < xs.length), v[i]'(by omega) = xs[i]) : firstEntries v xs.length = xs := by
  apply List.ext_getElem
  · simp; omega
  · intro i h1 h2
    rw [firstEntries_getElem, heq]

/-- Reading back what was stored at the start of an array. -/
theorem firstEntries_storeAt_zero {α : Type} {m : Nat} (v : Vector α m) (xs : List α) (h : xs.length ≤ m) :
    firstEntries (storeAt v 0 xs) xs.length = xs := by
  apply firstEntries_eq _ _ h
  intro i hi
  rw [storeAt_getElem, dif_pos (by omega)]
  simp

/-- Appending to the first `n` entries. -/
theorem firstEntries_storeAt_append {α : Type} {m : Nat} (v : Vector α m) (n : Nat) (xs : List α)
    (h : n + xs.length ≤ m) : firstEntries (storeAt v n xs) (n + xs.length) = firstEntries v n ++ xs := by
  apply List.ext_getElem
  · simp; omega
  · intro i h1 h2
    rw [firstEntries_getElem, storeAt_getElem]
    simp only [length_firstEntries] at h1
    by_cases hi : n ≤ i
    · rw [dif_pos (by omega), List.getElem_append_right (by simp; omega)]
      simp only [length_firstEntries]
      congr 1; omega
    · rw [dif_neg (by omega), List.getElem_append_left (by simp; omega), firstEntries_getElem]

theorem byteAt_of_lt (f : List Byte) (i : Nat) (h : i < f.length) : byteAt f i = f[i] := by
  simp [byteAt, h]

/-! ## Byte order -/

@[simp] theorem length_beBytes (w : Half) : (beBytes w).length = 2 := rfl
@[simp] theorem length_crcBytes (c : Half) : (crcBytes c).length = 2 := rfl

/-- The two bytes of a word give the word back. -/
@[simp] theorem beHalf_hiByte_loByte (w : Half) : beHalf (hiByte w) (loByte w) = w := by
  apply BitVec.eq_of_toNat_eq
  simp only [beHalf, hiByte, loByte, BitVec.toNat_append, BitVec.extractLsb'_toNat, Nat.shiftRight_zero]
  rw [← Nat.shiftLeft_add_eq_or_of_lt (by omega)]
  simp only [Nat.shiftLeft_eq, Nat.shiftRight_eq_div_pow]
  omega

@[simp] theorem hiByte_beHalf (a b : Byte) : hiByte (beHalf a b) = a := by
  apply BitVec.eq_of_toNat_eq
  simp only [beHalf, hiByte, BitVec.toNat_append, BitVec.extractLsb'_toNat]
  rw [← Nat.shiftLeft_add_eq_or_of_lt (by omega)]
  simp only [Nat.shiftLeft_eq, Nat.shiftRight_eq_div_pow]
  omega

@[simp] theorem loByte_beHalf (a b : Byte) : loByte (beHalf a b) = b := by
  apply BitVec.eq_of_toNat_eq
  simp only [beHalf, loByte, BitVec.toNat_append, BitVec.extractLsb'_toNat]
  rw [← Nat.shiftLeft_add_eq_or_of_lt (by omega)]
  simp only [Nat.shiftLeft_eq, Nat.shiftRight_eq_div_pow]
  omega

/-! ## CRC -/

/-- A CRC over a concatenation continues from the CRC of the first part. -/
theorem crcFrom_append (c : Half) (a b : List Byte) : crcFrom c (a ++ b) = crcFrom (crcFrom c a) b := by
  simp [crcFrom, List.foldl_append]

@[simp] theorem crcFrom_nil (c : Half) : crcFrom c [] = c := rfl

@[simp] theorem crcFrom_cons (c : Half) (b : Byte) (bs : List Byte) :
    crcFrom c (b :: bs) = crcFrom (crcStep c b) bs := rfl

/-- While the low bits are 0, the loop only shifts. -/
theorem crcShifts_of_low_zero (n : Nat) (c : Half) (h : c.toNat % 2 ^ n = 0) : (crcShifts n c).toNat = c.toNat / 2 ^ n := by
  induction n generalizing c with
  | zero => simp [crcShifts]
  | succ n ih =>
    have hbit : c.getLsbD 0 = false := by
      have : c.toNat % 2 = 0 := by
        rw [Nat.pow_succ'] at h
        exact Nat.mod_eq_zero_of_dvd (Dvd.dvd.trans ⟨2 ^ n, rfl⟩ (Nat.dvd_of_mod_eq_zero h))
      simp [BitVec.getLsbD, Nat.testBit_zero, this]
    have hshift : crcShift c = c >>> 1 := by rw [crcShift, if_neg (by rw [hbit]; decide)]
    have hval : (c >>> 1).toNat = c.toNat / 2 := by
      simp [BitVec.toNat_ushiftRight, Nat.shiftRight_eq_div_pow]
    rw [crcShifts, hshift, ih]
    · rw [hval, Nat.pow_succ', Nat.div_div_eq_div_mul]
    · rw [hval]
      rw [Nat.pow_succ'] at h
      obtain ⟨k, hk⟩ := Nat.dvd_of_mod_eq_zero h
      rw [hk, Nat.mul_assoc, Nat.mul_div_cancel_left _ (by omega)]
      exact Nat.mul_mod_right _ _

@[simp] theorem length_serialize (body : List Byte) : (serialize body).length = body.length + 2 := by
  simp [serialize]

/-- What a frame carries as its CRC is its body's CRC. -/
theorem frameRecv_serialize (body : List Byte) : frameRecv (serialize body) = crc16 body := by
  unfold frameRecv
  rw [byteAt_of_lt _ _ (by simp), byteAt_of_lt _ _ (by simp)]
  simp [serialize, crcBytes]

/-- What a parser computes over a frame is its body's CRC. -/
theorem frameCalc_serialize (body : List Byte) : frameCalc (serialize body) = crc16 body := by
  unfold frameCalc
  rw [length_serialize]
  simp [serialize]

/-! ## The first-error rule -/

theorem firstError_eq_none (l : List (Bool × CmdError)) : firstError l = none ↔ ∀ p ∈ l, p.1 = false := by
  induction l with
  | nil => simp [firstError]
  | cons p l ih =>
    obtain ⟨b, e⟩ := p
    cases b <;> simp [firstError, ih]

theorem firstError_cons_true (e : CmdError) (l : List (Bool × CmdError)) : firstError ((true, e) :: l) = some e := rfl

theorem firstError_cons_false (e : CmdError) (l : List (Bool × CmdError)) :
    firstError ((false, e) :: l) = firstError l := rfl

/-- An error found is one of the list's errors, and its check failed. -/
theorem firstError_mem {l : List (Bool × CmdError)} {e : CmdError} (h : firstError l = some e) : (true, e) ∈ l := by
  induction l with
  | nil => simp [firstError] at h
  | cons p l ih =>
    obtain ⟨b, e'⟩ := p
    cases b
    · exact List.mem_cons_of_mem _ (ih h)
    · simp only [firstError, if_true, Option.some.injEq] at h
      subst h; simp

/-! ## Narrow operands -/

theorem exceeds8_iff (w : Word) : exceeds8 w = true ↔ 0xFF < w.toNat := by
  unfold exceeds8
  rw [bne_iff_ne, ne_eq, ← BitVec.toNat_inj]
  simp only [BitVec.extractLsb'_toNat, Nat.shiftRight_eq_div_pow, BitVec.toNat_ofNat]
  omega

theorem exceeds16_iff (w : Word) : exceeds16 w = true ↔ 0xFFFF < w.toNat := by
  unfold exceeds16
  rw [bne_iff_ne, ne_eq, ← BitVec.toNat_inj]
  simp only [BitVec.extractLsb'_toNat, Nat.shiftRight_eq_div_pow, BitVec.toNat_ofNat]
  omega

theorem badCount_iff (w : Word) : badCount w = true ↔ w.toNat = 0 ∨ 30 < w.toNat := by
  unfold badCount
  rw [Bool.or_eq_true, decide_eq_true_iff, decide_eq_true_iff]
  simp only [Config.minQty, Config.maxQty]
  omega

theorem badSlave_iff (a : Byte) : badSlave a = true ↔ 62 < a.toNat := by
  unfold badSlave
  rw [decide_eq_true_iff]

theorem toNat_low16 (w : Word) : (low16 w).toNat = w.toNat % 65536 := by
  simp [low16]

theorem toNat_low8 (w : Word) : (low8 w).toNat = w.toNat % 256 := by
  simp [low8]

/-! ## RXNEED -/

/-- RXNEED is 3, 5 + a byte, 8 or 260. -/
theorem rxNeed_bounds (s : State) : 3 ≤ rxNeed s ∧ rxNeed s ≤ 260 := by
  have := (s.rxbuf[2]).isLt
  unfold rxNeed
  split
  · split <;> (try simp only [Config.rdHdrLen]) <;> omega
  · simp [Config.echoLen]
  · simp [Config.echoLen]
  · simp [Config.bufBytes]

/-- RXNEED while the header of a 0x03 response is incomplete. -/
theorem rxNeed_header {s : State} (h : s.exp.fc = .read) (hl : s.rxlen.toNat < 3) : rxNeed s = 3 := by
  unfold rxNeed
  rw [h]
  exact if_pos hl

/-- RXNEED once the header of a 0x03 response is there. -/
theorem rxNeed_body {s : State} (h : s.exp.fc = .read) (hl : 3 ≤ s.rxlen.toNat) :
    rxNeed s = 5 + (s.rxbuf[2]).toNat := by
  unfold rxNeed
  rw [h]
  exact if_neg (Nat.not_lt.mpr hl)

/-- RXNEED of an echo. -/
theorem rxNeed_echo {s : State} (h : s.exp.fc = .write1 ∨ s.exp.fc = .writeN) : rxNeed s = 8 := by
  unfold rxNeed
  rcases h with h | h <;> rw [h]

/-- RXNEED with no expectation. -/
theorem rxNeed_noExp {s : State} (h : s.exp.fc = .none) : rxNeed s = 260 := by
  unfold rxNeed
  rw [h]

/-- RXNEED reads EXP.FC, RXLEN and RXBUF[2] only. -/
theorem rxNeed_congr {s t : State} (hf : t.exp.fc = s.exp.fc) (hl : t.rxlen = s.rxlen) (hb : t.rxbuf = s.rxbuf) :
    rxNeed t = rxNeed s := by
  unfold rxNeed
  rw [hf, hl, hb]

/-! ## The host port -/

/-- A push either stores one byte below RXNEED or sets RXOVF. -/
theorem pushByte_cases (b : Byte) (s : State) :
    (s.rxlen.toNat < rxNeed s ∧
      pushByte b s = { s with rxbuf := s.rxbuf.setIfInBounds s.rxlen.toNat b, rxlen := s.rxlen + 1#9 }) ∨
    (rxNeed s ≤ s.rxlen.toNat ∧ pushByte b s = { s with status := { s.status with rxovf := true } }) := by
  unfold pushByte
  split
  · exact .inl ⟨by assumption, rfl⟩
  · exact .inr ⟨by omega, rfl⟩

/-- A host write acknowledges, sets HAZ, or writes one place of the window. -/
theorem hostWrite_cases (off : BitVec 13) (v : Word) (s : State) :
    (off = 0x004#13 ∧ hostWrite off v s = acknowledge v s) ∨
    (off ≠ 0x004#13 ∧ s.busy = true ∧ hostWrite off v s = { s with status := { s.status with haz := true } }) ∨
    (off ≠ 0x004#13 ∧ s.busy = false ∧ hostWrite off v s = writeReg (regAt off) v s) := by
  unfold hostWrite
  split
  · exact .inl ⟨by assumption, rfl⟩
  · split
    · exact .inr (.inl ⟨by assumption, by assumption, rfl⟩)
    · next h => exact .inr (.inr ⟨by assumption, Bool.eq_false_iff.mpr h, rfl⟩)

/-- An access writes the window, or changes nothing but its answer. -/
theorem hostAccess_cases (a : Access) (s : State) :
    (a.legal = true ∧ a.hwrite = true ∧
      hostAccess a s = { hostWrite a.haddr a.hwdata s with resp := some (.write false) }) ∨
    ∃ r, hostAccess a s = { s with resp := some r } := by
  unfold hostAccess
  split
  · split
    · exact .inl ⟨by assumption, by assumption, rfl⟩
    · exact .inr ⟨_, rfl⟩
  · exact .inr ⟨_, rfl⟩

/-- A step is a reset cycle, a completion, or a host cycle. -/
theorem step_cases (s : State) :
    (resetPending s = true ∧ step s = .next (resetCycle s)) ∨
    (resetPending s = false ∧ s.eng = .exec 0 ∧ step s = completeCommand s) ∨
    (resetPending s = false ∧ s.eng ≠ .exec 0 ∧ step s = .next (hostCycle s)) := by
  unfold step
  split
  · exact .inl ⟨by assumption, rfl⟩
  · next h =>
    have hr : resetPending s = false := Bool.eq_false_iff.mpr h
    split
    · exact .inr (.inl ⟨hr, by assumption, rfl⟩)
    · exact .inr (.inr ⟨hr, by simp [*], rfl⟩)
    · exact .inr (.inr ⟨hr, by simp [*], rfl⟩)

/-! ## Runs -/

/-- A run of `k + 1` steps is a step and a run of `k`. -/
theorem runsTo_succ {s t : State} (h : step s = .next t) (k : Nat) (u : State) : RunsTo (k + 1) s u ↔ RunsTo k t u := by
  unfold RunsTo
  have hrun : Host.Core.run Sys2Proof.core (k + 1) s = Host.Core.run Sys2Proof.core k t := by
    refine (Host.Core.run.eq_2 Sys2Proof.core s k).trans ?_
    have h' : Sys2Proof.core.step s = .next t := h
    rw [h']
  rw [hrun]

/-- A run of no steps stays. -/
theorem runsTo_zero (s u : State) : RunsTo 0 s u ↔ s = u := by
  have hrun : Host.Core.run Sys2Proof.core 0 s = .next s := Host.Core.run.eq_1 Sys2Proof.core s
  unfold RunsTo
  rw [hrun]
  exact ⟨fun h => Host.Outcome.next.inj h, fun h => h ▸ rfl⟩

end Sys2Proof.Machine
end

