-- ==== Sys2Proof/Laws/Bridge.lean ====
section
/-!
SUPPORT. Laws/Bridge.lean: the words of the statements (Safety.lean) against the machine's own, and what each shared
reader depends on.
-/

namespace Sys2Proof.Machine

/-- The end of the completion step in the statements' word. -/
theorem finish_eq (r s) : finish r s = ended r s := rfl

/-- The number of a concatenation. -/
theorem app_toNat {m n : Nat} (x : BitVec m) (y : BitVec n) : (x ++ y).toNat = x.toNat * 2^n + y.toNat := by
  rw [BitVec.toNat_append, ← Nat.shiftLeft_add_eq_or_of_lt y.isLt, Nat.shiftLeft_eq]

/-- A beginning is no longer than the array. -/
theorem StartsWith.le {α : Type} {n : Nat} {v : Vector α n} {xs : List α} (h : StartsWith v xs) : xs.length ≤ n := by
  by_contra hc
  have := h n (by omega)
  simp at this

/-- A beginning is the array's first entries. -/
theorem StartsWith.firstEntries {α : Type} {n : Nat} {v : Vector α n} {xs : List α} (h : StartsWith v xs) : firstEntries v xs.length = xs := by
  apply firstEntries_eq _ _ h.le
  intro i hi
  have hl := h.le
  have := h i hi
  rw [Vector.getElem?_eq_getElem (by omega)] at this
  simpa using this

/-- The received bytes as the machine reads them. -/
theorem Received.bytes {s : State} {f : List Byte} (h : Received s f) : rxBytes s = f := by
  unfold rxBytes; rw [← h.1]; exact h.2.firstEntries

/-- What was stored at the start is the array's beginning. -/
theorem StartsWith.storeAt {α : Type} {n : Nat} (v : Vector α n) (xs : List α) (h : xs.length ≤ n) : StartsWith (storeAt v 0 xs) xs := by
  intro i hi
  rw [Vector.getElem?_eq_getElem (by omega), storeAt_getElem, dif_pos (by omega)]
  simp

/-- A store leaves the entries after it. -/
theorem SameFrom.storeAt {α : Type} {n : Nat} (v : Vector α n) (xs : List α) (k : Nat) : SameFrom (k + xs.length) (storeAt v k xs) v := by
  intro i hi
  by_cases h : i < n
  · rw [Vector.getElem?_eq_getElem h, Vector.getElem?_eq_getElem h, storeAt_getElem, dif_neg (by omega)]
  · simp [h]

/-- The CRC a frame carries, in the machine's word. -/
theorem carriedCrc_eq (f : List Byte) : carriedCrc f = frameRecv f := by
  unfold carriedCrc frameRecv beHalf byteAt
  apply BitVec.eq_of_toNat_eq
  rw [app_toNat]; simp
  omega

/-- The CRC computed over a frame, in the machine's word. -/
theorem computedCrc_eq (f : List Byte) : computedCrc f = frameCalc f := rfl

/-- record(f) in the statements' word. -/
theorem record_eq (f s) : Machine.record f s = recorded f s := by
  unfold Machine.record recorded; rw [carriedCrc_eq]; rfl

/-- record(f) after CRCOK ← 0. -/
theorem record_clear (f s) : Machine.record f (clearCrcok s) = recorded f s := by
  rw [← record_eq]; rfl

/-- A framed body is the serialized body. -/
theorem framed_eq (b : List Byte) : framed b = serialize b := by
  unfold framed serialize crcBytes lowByte highByte loByte hiByte
  congr 1
  congr 1
  · apply BitVec.eq_of_toNat_eq; simp
  · congr 1; apply BitVec.eq_of_toNat_eq; simp [Nat.shiftRight_eq_div_pow]

/-- The high byte of a 16-bit value. -/
theorem highByte_eq (w : Half) : highByte w.toNat = hiByte w := by
  apply BitVec.eq_of_toNat_eq; simp [highByte, hiByte, Nat.shiftRight_eq_div_pow]

/-- The low byte of a 16-bit value. -/
theorem lowByte_eq (w : Half) : lowByte w.toNat = loByte w := by
  apply BitVec.eq_of_toNat_eq; simp [lowByte, loByte]

/-- The wire bytes of a sequence of words. -/
theorem wireWords_eq (ws : List Half) : wireWords ws = ws.flatMap beBytes := by
  unfold wireWords; congr 1; funext w; simp [beBytes, highByte_eq, lowByte_eq]

/-- The high byte of a 16-bit operand. -/
theorem hi_low16 {w : Word} (h : w.toNat ≤ 0xFFFF) : hiByte (low16 w) = highByte w.toNat := by
  rw [← highByte_eq, toNat_low16, Nat.mod_eq_of_lt (by omega)]

/-- The low byte of a 16-bit operand. -/
theorem lo_low16 {w : Word} (h : w.toNat ≤ 0xFFFF) : loByte (low16 w) = lowByte w.toNat := by
  rw [← lowByte_eq, toNat_low16, Nat.mod_eq_of_lt (by omega)]

/-- The two wire bytes of a 16-bit operand. -/
theorem be_low16 {w : Word} (h : w.toNat ≤ 0xFFFF) : beBytes (low16 w) = [highByte w.toNat, lowByte w.toNat] := by
  rw [beBytes, hi_low16 h, lo_low16 h]

/-- The two wire bytes of a quantity. -/
theorem be_qty {w : Word} (h : w.toNat ≤ 30) : beBytes (low16 w) = [0#8, lowByte w.toNat] := by
  rw [be_low16 (by omega)]
  congr 1; unfold highByte; rw [Nat.div_eq_of_lt (by omega)]

/-- Two wire bytes a word. -/
theorem length_wireWords (vs : List Half) : (vs.flatMap beBytes).length = 2 * vs.length := by
  induction vs with
  | nil => rfl
  | cons v vs ih => simp [List.flatMap_cons, ih, length_beBytes]; omega

/-- A 16-bit operand in range. -/
theorem exceeds16_false {w : Word} (h : w.toNat ≤ 0xFFFF) : exceeds16 w = false := by rw [Bool.eq_false_iff, ne_eq, exceeds16_iff]; omega

/-- A quantity in range. -/
theorem badCount_false {w : Word} (h : 1 ≤ w.toNat) (h2 : w.toNat ≤ 30) : badCount w = false := by rw [Bool.eq_false_iff, ne_eq, badCount_iff]; omega

/-- The first check of a builder: DISCONNECTED. -/
theorem common_disc {s : State} (h : s.ctrl.en = false) (l) : firstError (commonChecks s ++ l) = some .cfgDisconnected := by
  simp [commonChecks, h, firstError]

/-- The second check of a builder: ADDR. -/
theorem common_addr {s : State} (h : s.ctrl.en = true) (h2 : 62 < s.slave.toNat) (l) : firstError (commonChecks s ++ l) = some .cfgAddr := by
  simp [commonChecks, h, firstError, (badSlave_iff _).2 h2]

/-- The builder's own checks decide when the common ones pass. -/
theorem common_ok {s : State} (h : s.ctrl.en = true) (h2 : s.slave.toNat ≤ 62) (l) : firstError (commonChecks s ++ l) = firstError l := by
  have : badSlave s.slave = false := by rw [Bool.eq_false_iff, ne_eq, badSlave_iff]; omega
  simp [commonChecks, h, firstError, this]

theorem firstError_nil : firstError [] = none := rfl

/-- TXBUF's beginning depends on TXBUF and TXLEN only. -/
theorem txBytes_congr {s t : State} (hb : t.txbuf = s.txbuf) (hl : t.txlen = s.txlen) : txBytes t = txBytes s := by
  unfold txBytes
  rw [hb, hl]

/-- RXBUF's beginning depends on RXBUF and RXLEN only. -/
theorem rxBytes_congr {s t : State} (hb : t.rxbuf = s.rxbuf) (hl : t.rxlen = s.rxlen) : rxBytes t = rxBytes s := by
  unfold rxBytes
  rw [hb, hl]

/-- VAL's wire bytes depend on VAL only. -/
theorem valBytes_congr {s t : State} (hv : t.val = s.val) (q : Nat) : valBytes t q = valBytes s q := by
  unfold valBytes
  rw [hv]

/-- A builder's common checks read CTRL and SLAVE only. -/
theorem commonChecks_congr {s t : State} (hc : t.ctrl = s.ctrl) (ha : t.slave = s.slave) :
    commonChecks t = commonChecks s := by
  unfold commonChecks
  rw [hc, ha]

/-- PARSE's first checks read CTRL, EXP, RXLEN and RXBUF only. -/
theorem acquisitionChecks_congr {s t : State} (hc : t.ctrl = s.ctrl) (he : t.exp = s.exp) (hl : t.rxlen = s.rxlen)
    (hb : t.rxbuf = s.rxbuf) : acquisitionChecks t = acquisitionChecks s := by
  unfold acquisitionChecks
  rw [rxNeed_congr (by rw [he]) hl hb, hc, he, hl]

/-- PARSE's checks of a frame read EXP only. -/
theorem contentChecks_congr {s t : State} (he : t.exp = s.exp) (f : List Byte) : contentChecks f t = contentChecks f s := by
  unfold contentChecks
  rw [he]

/-- PLLEN is the payload's length (R34, R123). -/
theorem length_framePayload (f : List Byte) (h : 4 ≤ f.length) : (framePayload f).length = f.length - 4 := by
  unfold framePayload
  rw [List.length_take, List.length_drop]
  omega

end Sys2Proof.Machine
end

