-- ==== Sys2Proof/Laws/PerInstr.lean ====
section
/-!
SUPPORT. Laws/PerInstr.lean: statements made command by command. The word of every command is well-formed, as
WellFormed.lean says it apart from the decoder.
-/

namespace Sys2Proof.Laws.EncodedWord

/-- The encoder gives a word with RSV = 0 and a listed OP. -/
def Statement (i : Instr) : Prop := wordWellFormed (encode i) = true

theorem nop : Statement .nop := by unfold Statement; decide
theorem crcInit : Statement .crcInit := by unfold Statement; decide
theorem crcByte : Statement .crcByte := by unfold Statement; decide
theorem crcTx : Statement .crcTx := by unfold Statement; decide
theorem crcRx : Statement .crcRx := by unfold Statement; decide
theorem split : Statement .split := by unfold Statement; decide
theorem combine : Statement .combine := by unfold Statement; decide
theorem serAppend : Statement .serAppend := by unfold Statement; decide
theorem serRd : Statement .serRd := by unfold Statement; decide
theorem serWr1 : Statement .serWr1 := by unfold Statement; decide
theorem serWrn : Statement .serWrn := by unfold Statement; decide
theorem parse : Statement .parse := by unfold Statement; decide
theorem parseRaw : Statement .parseRaw := by unfold Statement; decide
theorem rxClear : Statement .rxClear := by unfold Statement; decide

end Sys2Proof.Laws.EncodedWord
end

