-- ==== Sys2Proof/Laws/Window.lean ====
section
/-!
SUPPORT. Laws/Window.lean: the address map of R52 entry by entry, and the step of a host cycle.
-/

namespace Sys2Proof.Machine

/-- One flag as a number. -/
theorem toNat_bit (b : Bool) : (bit b).toNat = b.toNat := by cases b <;> rfl

/-- An offset that is not a number is not that offset. -/
theorem off_ne {off : BitVec 13} {k : Nat} (h : off.toNat ≠ k) (hk : k < 8192 := by omega) : off ≠ BitVec.ofNat 13 k := by
  rintro rfl; apply h
  simp
  omega

/-- The offset of a number. -/
theorem off_eq {off : BitVec 13} {k : Nat} (h : off.toNat = k) : off = BitVec.ofNat 13 k := by
  apply BitVec.eq_of_toNat_eq; simp; omega

/-- No single register stands at 0x044 or above. -/
theorem regAt_lookup_none_single (a : Nat) (h : 0x44 ≤ a) : singleRegs.lookup a = none := by
  simp only [singleRegs, List.lookup_cons]
  have : ∀ k : Nat, k < 0x44 → (a == k) = false := by intro k hk; simp; omega
  simp [this]

/-- From 0x044 on the map is the arrays'. -/
theorem regAt_array (off : BitVec 13) (h : 0x44 ≤ off.toNat) : regAt off = arrayReg off.toNat := by
  unfold regAt; rw [regAt_lookup_none_single _ h]

/-- A read of a place of the window. -/
theorem hostRead_off {off : BitVec 13} {r : Reg} (h : regAt off = r) (s) : hostRead off s = readReg r s := by
  unfold hostRead; rw [h]

/-- VAL[i] stands at 0x100 + 4·i. -/
theorem regAt_val (i : Fin 30) : regAt (BitVec.ofNat 13 (0x100 + 4 * i.val)) = .val i := by
  have h : (BitVec.ofNat 13 (0x100 + 4 * i.val)).toNat = 0x100 + 4 * i.val := by simp; omega
  rw [regAt_array _ (by omega), arrayReg, if_neg (by omega), if_pos (by omega), dif_pos (by omega)]
  congr 1; apply Fin.ext; simp only; omega

/-- RDAT[i] stands at 0x200 + 4·i. -/
theorem regAt_rdat (i : Fin 30) : regAt (BitVec.ofNat 13 (0x200 + 4 * i.val)) = .rdat i := by
  have h : (BitVec.ofNat 13 (0x200 + 4 * i.val)).toNat = 0x200 + 4 * i.val := by simp; omega
  rw [regAt_array _ (by omega), arrayReg, if_neg (by omega), if_neg (by omega), if_pos (by omega), dif_pos (by omega)]
  congr 1; apply Fin.ext; simp only; omega

/-- TXBUF[i] stands at 0x400 + 4·i. -/
theorem regAt_txbuf (i : Fin 260) : regAt (BitVec.ofNat 13 (0x400 + 4 * i.val)) = .txbuf i := by
  have h : (BitVec.ofNat 13 (0x400 + 4 * i.val)).toNat = 0x400 + 4 * i.val := by simp; omega
  rw [regAt_array _ (by omega), arrayReg, if_neg (by omega), if_neg (by omega), if_neg (by omega), if_pos (by omega), dif_pos (by omega)]
  congr 1; apply Fin.ext; simp only; omega

/-- RXBUF[i] stands at 0x1000 + 4·i. -/
theorem regAt_rxbuf (i : Fin 260) : regAt (BitVec.ofNat 13 (0x1000 + 4 * i.val)) = .rxbuf i := by
  have h : (BitVec.ofNat 13 (0x1000 + 4 * i.val)).toNat = 0x1000 + 4 * i.val := by simp; omega
  rw [regAt_array _ (by omega), arrayReg, if_neg (by omega), if_neg (by omega), if_neg (by omega), if_neg (by omega), dif_pos (by omega)]
  congr 1; apply Fin.ext; simp only; omega

/-- R47's legal access, in numbers. -/
theorem legal_iff (a : Access) : a.legal = true ↔ a.hsize.toNat = 4 ∧ a.haddr.toNat % 4 = 0 := by
  unfold Access.legal
  rw [Bool.and_eq_true, beq_iff_eq, beq_iff_eq, ← BitVec.toNat_inj, ← BitVec.toNat_inj]
  simp

/-- The step of a host cycle with an access. -/
theorem HostTurn.step_eq {s s' : State} {a : Access} (h : HostTurn s a s') : step s = .next (hostAccess a s') := by
  obtain ⟨rest, hi, ⟨he, rfl⟩ | ⟨n, he, rfl⟩⟩ := h
  · simp [step, resetPending, hi, he, hostCycle, tick]
  · simp [step, resetPending, hi, he, hostCycle, tick]

/-- A read of the window does not see the engine's wait or the coming cycles. -/
theorem readReg_congr (r : Reg) (s s' : State) (h : s' = { s with eng := s'.eng, inputs := s'.inputs }) (hb : s'.busy = s.busy) : readReg r s' = readReg r s := by
  have e1 : s'.status = s.status := by rw [h]
  rw [h]
  cases r <;> simp [readReg, ctrlWord, statusWord, expWord, rxhdrWord, rxcrcWord, rxNeed]
  rw [← hb]; rw [h]

/-- A read in a host cycle returns what it returns before it. -/
theorem HostTurn.read {s s' : State} {a : Access} (h : HostTurn s a s') (off) : hostRead off s' = hostRead off s := by
  obtain ⟨rest, hi, ⟨he, rfl⟩ | ⟨n, he, rfl⟩⟩ := h
  · exact readReg_congr _ _ _ rfl rfl
  · exact readReg_congr _ _ _ rfl (by simp [State.busy, he])

/-- BUSY in a host cycle. -/
theorem HostTurn.busy_eq {s s' : State} {a : Access} (h : HostTurn s a s') : s'.busy = s.busy ∧ (s.eng ≠ .idle → s'.busy = true) ∧ (s.eng = .idle → s'.busy = false) := by
  obtain ⟨rest, hi, ⟨he, rfl⟩ | ⟨n, he, rfl⟩⟩ := h <;> simp [State.busy, he]

/-- No reset in the coming cycles means none in the next. -/
theorem resetPending_noReset {s : State} {n : Nat} (h : NoResetIn (n + 1) s) : resetPending s = false := by
  unfold resetPending
  split
  · rfl
  · next inp rest hi => exact h inp (by rw [hi]; simp)

/-- The invariant reads EXP, RXLEN and RXBUF only. -/
theorem Inv.of_congr {s t : State} (h : Inv s) (h1 : t.exp = s.exp) (h2 : t.rxlen = s.rxlen) (h3 : t.rxbuf = s.rxbuf) : Inv t := by
  have hn : rxNeed t = rxNeed s := rxNeed_congr (by rw [h1]) h2 h3
  exact ⟨by rw [h2, hn]; exact h.rxlen_le, by rw [hn]; exact h.rxneed_le, by rw [h1]; exact h.qty, by rw [h1]; exact h.addr⟩

end Sys2Proof.Machine
end

