-- ==== Sys2Proof/Tests/Slice0.lean ====
section
/-!
SUPPORT. Tests/Slice0.lean: the model against values written out from the spec (95_test_vectors.md, and the layouts of
30_encoding.md), and a witness for the hypotheses of every statement that has some. Each expected value is the spec's.
-/

namespace Sys2Proof.Tests

open Sys2Proof.Machine

-- One theorem after another: each kernel evaluation waits for the ones before it, and would hold a thread while it waits.
set_option Elab.async false

/-! ## WellFormed: each check refuses an ill-formed word -/

theorem test_wf_refuses_reserved_bits : rsvIsZero 0x00000100#32 = false := by decide
theorem test_wf_refuses_unlisted_op : opIsListed 0x00000005#32 = false := by decide
theorem test_wf_word_refuses : wordWellFormed 0x00000121#32 = false ∧ wordWellFormed 0x0000003E#32 = false := by decide
theorem test_wf_accepts_ser_rd : wordWellFormed 0x00000021#32 = true := by decide

/-! ## Decoding: every command's word, RSV = 24 zeros above the 8 bits of OP (R62, R64) -/

theorem test_decode_nop : decode 0b00000000000000000000000000000000#32 = .command .nop := by decide
theorem test_decode_crc_init : decode 0b00000000000000000000000000000001#32 = .command .crcInit := by decide
theorem test_decode_crc_byte : decode 0b00000000000000000000000000000010#32 = .command .crcByte := by decide
theorem test_decode_crc_tx : decode 0b00000000000000000000000000000011#32 = .command .crcTx := by decide
theorem test_decode_crc_rx : decode 0b00000000000000000000000000000100#32 = .command .crcRx := by decide
theorem test_decode_split : decode 0b00000000000000000000000000010000#32 = .command .split := by decide
theorem test_decode_combine : decode 0b00000000000000000000000000010001#32 = .command .combine := by decide
theorem test_decode_ser_append : decode 0b00000000000000000000000000100000#32 = .command .serAppend := by decide
theorem test_decode_ser_rd : decode 0b00000000000000000000000000100001#32 = .command .serRd := by decide
theorem test_decode_ser_wr1 : decode 0b00000000000000000000000000100010#32 = .command .serWr1 := by decide
theorem test_decode_ser_wrn : decode 0b00000000000000000000000000100011#32 = .command .serWrn := by decide
theorem test_decode_parse : decode 0b00000000000000000000000000110000#32 = .command .parse := by decide
theorem test_decode_parse_raw : decode 0b00000000000000000000000000110001#32 = .command .parseRaw := by decide
theorem test_decode_rx_clear : decode 0b00000000000000000000000000111111#32 = .command .rxClear := by decide

/-- V38: the illegal words and which of the two causes each has. -/
theorem test_decode_illegal : decode 0x00000005#32 = .opcode ∧ decode 0x0000003E#32 = .opcode ∧
    decode 0x000000FF#32 = .opcode ∧ decode 0x00000100#32 = .reserved ∧ decode 0x12345605#32 = .reserved ∧
    decode 0x00000121#32 = .reserved := by decide

/-- No two rows of the opcode map share an OP. -/
theorem test_opcode_map_distinct : (opcodeMap.map Prod.fst).Pairwise (fun a b => a ≠ b) := by decide

theorem test_decode_table_word : decodeTableWord 32 0x21 = some .serRd ∧ decodeTableWord 32 0x121 = none ∧
    decodeTableWord 8 0x3F = some .rxClear := by decide

/-! ## Small states -/

/-- The state an outcome goes on in. -/
def after (o : Host.Outcome State Fault Refusal) : State :=
  match o with
  | .next t => t
  | .fault _ => State.reset
  | .refused _ => State.reset

/-- A connected block whose slave is `a` and whose operands are `x` and `y`. -/
def argState (a : Byte) (x y : Word) : State :=
  { State.reset with ctrl := { en := true, irqen := false }, slave := a, arg0 := x, arg1 := y }

/-- `bs` in TXBUF, TXLEN its length. -/
def txState (bs : List Byte) : State :=
  { State.reset with txbuf := storeAt State.reset.txbuf 0 bs, txlen := BitVec.ofNat 9 bs.length }

/-- `bs` in RXBUF, RXLEN its length. -/
def rxState (bs : List Byte) : State :=
  { State.reset with rxbuf := storeAt State.reset.rxbuf 0 bs, rxlen := BitVec.ofNat 9 bs.length }

/-- A connected block that expects the function code `fc` and `q` words of slave 1, with `bs` received. -/
def expState (fc : ExpFc) (q : BitVec 5) (bs : List Byte) : State :=
  { rxState bs with ctrl := { en := true, irqen := false }, exp := { addr := 0x01#8, fc := fc, qty := q } }

/-- STATUS, EXP and the first bytes of TXBUF after a step. -/
def statusOf (o : Host.Outcome State Fault Refusal) : Nat := (statusWord (after o)).toNat

/-- A host about to perform one access, the engine in `e`. -/
def hostState (e : Engine) (a : Access) (s : State) : State :=
  { s with eng := e, inputs := [{ rst := false, access := some a }] }

/-- A 32-bit read of an offset. -/
def rd (off : BitVec 13) : Access := { haddr := off, hsize := 4#3, hwrite := false, hwdata := 0#32 }

/-- A 32-bit write of an offset. -/
def wr (off : BitVec 13) (v : Word) : Access := { haddr := off, hsize := 4#3, hwrite := true, hwdata := v }

/-- The response of V20. -/
def v20 : List Byte := [0x01, 0x03, 0x08, 0x00, 0x00, 0x2E, 0xE0, 0x00, 0x00, 0x27, 0x10, 0x08, 0x73]

/-! ## The CRC engine -/

/-- V11. -/
theorem test_crc_step : crcStep 0xFFFF#16 0x01#8 = 0x807E#16 ∧ crcStep 0x0000#16 0x00#8 = 0x0000#16 ∧
    crcStep 0xFFFF#16 0xFF#8 = 0x00FF#16 ∧ crcStep 0x0000#16 0x01#8 = 0xC0C1#16 ∧
    crcStep 0x807E#16 0x03#8 = 0x2140#16 ∧ crcStep 0x1234#16 0x56#8 = 0xE993#16 := by decide

/-- V12. -/
theorem test_crc16 : crc16 [] = 0xFFFF#16 ∧ crc16 [0x00] = 0x40BF#16 ∧ crc16 [0xFF] = 0x00FF#16 ∧
    crc16 [0x31, 0x32, 0x33, 0x34, 0x35, 0x36, 0x37, 0x38, 0x39] = 0x4B37#16 ∧
    crc16 [0x01, 0x03, 0x00, 0x00, 0x00, 0x0A] = 0xCDC5#16 ∧
    crc16 [0x01, 0x06, 0x00, 0x65, 0x00, 0x00] = 0xD599#16 := by decide +kernel

/-- V14, row 1. -/
theorem test_crc_init : (after (exec .crcInit { State.reset with crc := 0x1234#16 })).crc = 0xFFFF#16 := by decide +kernel

/-- R94's example. -/
theorem test_crc_byte : (after (exec .crcByte { State.reset with arg0 := 0x01#32 })).crc = 0x807E#16 := by decide +kernel

/-- V14, row 2. -/
theorem test_crc_byte_range : statusOf (exec .crcByte { State.reset with arg0 := 0x100#32 }) = 0x4102 ∧
    (after (exec .crcByte { State.reset with arg0 := 0x100#32 })).crc = 0xFFFF#16 := by decide +kernel

/-- V14, row 6. -/
theorem test_crc_tx : (after (exec .crcTx (txState [0x01, 0x03, 0x00, 0x00, 0x00, 0x0A]))).res0 = 0xCDC5#32 := by
  decide +kernel

/-- V14, row 4. -/
theorem test_crc_tx_len : statusOf (exec .crcTx { State.reset with txlen := 261#9 }) = 0x5102 := by decide +kernel

/-- V14, rows 7 and 8. -/
theorem test_crc_rx :
    (after (exec .crcRx (rxState [0x01, 0x03, 0x00, 0x00, 0x00, 0x0A, 0xC5, 0xCD]))).crc = 0x0000#16 ∧
    (after (exec .crcRx State.reset)).res0 = 0xFFFF#32 := by decide +kernel

/-! ## The word codec -/

/-- V15. -/
theorem test_split : (after (exec .split { State.reset with arg0 := 0xDEADBEEF#32 })).res0 = 0xDEAD#32 ∧
    (after (exec .split { State.reset with arg0 := 0xDEADBEEF#32 })).res1 = 0xBEEF#32 := by decide +kernel

/-- V16, rows 3 and 5. -/
theorem test_combine : (after (exec .combine (argState 0 0x0002 0x0001))).res0 = 0x00020001#32 ∧
    (after (exec .combine (argState 0 0xFFFF 0xFFFF))).res0 = 0xFFFFFFFF#32 := by decide +kernel

/-- V16, rows 6 and 7. -/
theorem test_combine_range : statusOf (exec .combine (argState 0 0x10000 0)) = 0x4102 ∧
    statusOf (exec .combine (argState 0 0 0x10000)) = 0x4102 := by decide +kernel

/-! ## The serializer and the request builders -/

/-- R108's example. -/
theorem test_ser_append :
    firstEntries (after (exec .serAppend (txState [0x01, 0x03, 0x00, 0x00, 0x00, 0x0A]))).txbuf 9
      = [0x01, 0x03, 0x00, 0x00, 0x00, 0x0A, 0xC5, 0xCD, 0x00] ∧
    (after (exec .serAppend (txState [0x01, 0x03, 0x00, 0x00, 0x00, 0x0A]))).txlen = 8#9 := by decide +kernel

/-- V19, the LEN rows. -/
theorem test_ser_append_len : statusOf (exec .serAppend { State.reset with txlen := 1#9 }) = 0x5102 ∧
    statusOf (exec .serAppend { State.reset with txlen := 259#9 }) = 0x5102 := by decide +kernel

/-- V17, rows 2 and 5. -/
theorem test_ser_rd :
    firstEntries (after (exec .serRd (argState 1 302 4))).txbuf 8 = [0x01, 0x03, 0x01, 0x2E, 0x00, 0x04, 0x25, 0xFC] ∧
    firstEntries (after (exec .serRd (argState 62 0xFFFF 30))).txbuf 8
      = [0x3E, 0x03, 0xFF, 0xFF, 0x00, 0x1E, 0xC0, 0xE9] ∧
    expWord (after (exec .serRd (argState 62 0xFFFF 30))) = 0x001E033E#32 := by decide +kernel

/-- V2 and V19: COUNT on 32 bits, ADDR, RANGE, and DISCONNECTED before all of them. -/
theorem test_ser_rd_errors : statusOf (exec .serRd (argState 1 0 0)) = 0x3102 ∧
    statusOf (exec .serRd (argState 1 0 31)) = 0x3102 ∧ statusOf (exec .serRd (argState 1 0 0x10001)) = 0x3102 ∧
    statusOf (exec .serRd (argState 63 0 1)) = 0x2102 ∧ statusOf (exec .serRd (argState 1 0x10000 1)) = 0x4102 ∧
    statusOf (exec .serRd { argState 63 0x10000 0 with ctrl := { en := false, irqen := false } }) = 0x1102 := by
  decide +kernel

/-- V18, row 2. -/
theorem test_ser_wr1 :
    firstEntries (after (exec .serWr1 (argState 1 0xFFFF 0xFFFF))).txbuf 8
      = [0x01, 0x06, 0xFF, 0xFF, 0xFF, 0xFF, 0x88, 0x5E] ∧
    expWord (after (exec .serWr1 (argState 1 0xFFFF 0xFFFF))) = 0x00000601#32 := by decide +kernel

/-- V19: ARG1 of SER_WR1 is a 16-bit value. -/
theorem test_ser_wr1_range : statusOf (exec .serWr1 (argState 1 0 0x10001)) = 0x4102 := by decide +kernel

/-- V8. -/
theorem test_ser_wrn :
    firstEntries (after (exec .serWrn { argState 1 101 5 with val := storeAt State.reset.val 0 [1, 0, 48000, 0, 10000] })).txbuf 19
      = [0x01, 0x10, 0x00, 0x65, 0x00, 0x05, 0x0A, 0x00, 0x01, 0x00, 0x00, 0xBB, 0x80, 0x00, 0x00, 0x27, 0x10, 0x69,
         0xA4] ∧
    expWord (after (exec .serWrn (argState 1 101 5))) = 0x00051001#32 := by decide +kernel

/-- V3. -/
theorem test_ser_wrn_count : statusOf (exec .serWrn (argState 1 0 0)) = 0x3102 ∧
    statusOf (exec .serWrn (argState 1 0 31)) = 0x3102 := by decide +kernel

/-! ## The parser -/

/-- V20. -/
theorem test_parse_read : statusOf (exec .parse (expState .read 4 v20)) = 0x0006 ∧
    firstEntries (after (exec .parse (expState .read 4 v20))).rdat 5 = [0x0000, 0x2EE0, 0x0000, 0x2710, 0x0000] ∧
    rxcrcWord (after (exec .parse (expState .read 4 v20))) = 0x73087308#32 ∧
    rxhdrWord (after (exec .parse (expState .read 4 v20))) = 0x00000301#32 ∧
    (after (exec .parse (expState .read 4 v20))).pllen = 9#9 := by decide +kernel

/-- V21 to V26: CRC, SHORT, ADDR, FC and BCNT. -/
theorem test_parse_errors :
    statusOf (exec .parse (expState .read 4
      [0x01, 0x03, 0x08, 0x00, 0x00, 0x2E, 0xE0, 0x00, 0x00, 0x27, 0x10, 0x08, 0x72])) = 0x4302 ∧
    statusOf (exec .parse (expState .read 4 [0x01, 0x03, 0x08])) = 0x1202 ∧
    statusOf (exec .parse (expState .read 4
      [0x02, 0x03, 0x08, 0x00, 0x00, 0x2E, 0xE0, 0x00, 0x00, 0x27, 0x10, 0x07, 0x37])) = 0x1306 ∧
    statusOf (exec .parse (expState .read 4
      [0x01, 0x04, 0x08, 0x00, 0x00, 0x2E, 0xE0, 0x00, 0x00, 0x27, 0x10, 0xB9, 0xA9])) = 0x2306 ∧
    statusOf (exec .parse (expState .read 4 [0x01, 0x03, 0x04, 0x00, 0x02, 0x00, 0x01, 0x9A, 0x33])) = 0x3306 := by
  decide +kernel

/-- V29 and V30. -/
theorem test_parse_echo :
    (after (exec .parse (expState .writeN 5 [0x01, 0x10, 0x00, 0x65, 0x00, 0x05, 0x10, 0x15]))).res0 = 0x65#32 ∧
    (after (exec .parse (expState .writeN 5 [0x01, 0x10, 0x00, 0x65, 0x00, 0x05, 0x10, 0x15]))).res1 = 0x05#32 ∧
    statusOf (exec .parse (expState .write1 0 [0x01, 0x06, 0x00, 0x65, 0x00, 0x01, 0x58, 0x15])) = 0x0006 := by
  decide +kernel

/-- V31: what becomes of Modbus exception responses. -/
theorem test_parse_exception_responses :
    statusOf (exec .parse (expState .write1 0 [0x01, 0x86, 0x02, 0xC3, 0xA1])) = 0x1202 ∧
    statusOf (exec .parse (expState .read 1 [0x01, 0x83, 0x02, 0xC0, 0xF1])) = 0x1202 ∧
    statusOf (exec .parse (expState .read 1 [0x01, 0x83, 0x00, 0x41, 0x30])) = 0x2306 := by decide +kernel

/-- V35, rows 1 and 2. -/
theorem test_parse_raw : statusOf (exec .parseRaw (rxState [0x01, 0x83, 0x02, 0xC0, 0xF1])) = 0x0006 ∧
    rxhdrWord (after (exec .parseRaw (rxState [0x01, 0x83, 0x02, 0xC0, 0xF1]))) = 0x00008301#32 ∧
    (after (exec .parseRaw (rxState [0x01, 0x03, 0x40, 0x21]))).pllen = 0#9 := by decide +kernel

/-- V35, rows 3 and 4. -/
theorem test_parse_raw_errors : statusOf (exec .parseRaw (rxState [0x01, 0x03, 0x40])) = 0x1202 ∧
    statusOf (exec .parseRaw (rxState [0x01, 0x03, 0x40, 0x22])) = 0x4302 := by decide +kernel

/-! ## Control commands and illegal words -/

/-- V37: NOP from STATUS = 0x00001302. -/
theorem test_nop : statusOf (exec .nop { State.reset with status := { State.reset.status with
    done := true, error := some .protoAddr } }) = 0x0002 := by decide +kernel

/-- V37: RX_CLEAR. -/
theorem test_rx_clear :
    (after (exec .rxClear (expState .read 4 [0x01, 0x03, 0x08, 0x00, 0x00]))).rxlen = 0#9 ∧
    rxNeed (after (exec .rxClear (expState .read 4 [0x01, 0x03, 0x08, 0x00, 0x00]))) = 3 ∧
    firstEntries (after (exec .rxClear (expState .read 4 [0x01, 0x03, 0x08, 0x00, 0x00]))).rxbuf 5
      = [0x01, 0x03, 0x08, 0x00, 0x00] := by decide +kernel

/-- V38: the completion of an illegal word, and the very next step after `withFetchWord`. -/
theorem test_illegal_words : statusOf (step (State.reset.withFetchWord 32 0x05)) = 0x1402 ∧
    statusOf (step (State.reset.withFetchWord 32 0x121)) = 0x2402 := by decide +kernel

theorem test_withFetchWord_runs_split :
    step (State.reset.withFetchWord 32 0x10) = exec .split (State.reset.withFetchWord 32 0x10) := by rfl

/-! ## The host port -/

/-- V39: an unaligned read, a narrow write, and a write of a narrow field. -/
theorem test_host_access :
    (after (step (hostState .idle (rd 0x002) State.reset))).resp = some (.read 0#32 true) ∧
    (after (step (hostState .idle { wr 0x010 0x1234 with hsize := 2#3 } State.reset))).resp = some (.write true) ∧
    (after (step (hostState .idle (wr 0x00C 0x1234567F) State.reset))).slave = 0x7F#8 ∧
    (after (step (hostState .idle (wr 0x024 0xFFFFFFFF) State.reset))).txlen = 511#9 := by decide +kernel

/-- V39: STATUS = 0x00000006 acknowledged with all ones leaves CRCOK. -/
theorem test_status_write : (statusWord (hostWrite 0x004#13 0xFFFFFFFF#32 { State.reset with status :=
    { State.reset.status with done := true, crcok := true } })).toNat = 0x0004 := by decide +kernel

/-- V40, step 2: a write while BUSY is dropped and sets HAZ; the other run, with the NOP completed first, accepts it. -/
theorem test_write_while_busy :
    statusOf (step (hostState (.exec 1) (wr 0x010 5) State.reset)) = 0x0009 ∧
    (after (step (hostState (.exec 1) (wr 0x010 5) State.reset))).arg0 = 0#32 ∧
    (after (step (hostState .idle (wr 0x010 5) State.reset))).arg0 = 5#32 := by decide +kernel

/-- V33: the ninth byte of an echo is refused. -/
theorem test_over_push :
    (statusWord (pushByte 0x55#8 (expState .write1 0 [0x01, 0x06, 0x00, 0x65, 0x00, 0x00, 0x99, 0xD5]))).toNat = 0x0010 ∧
    (pushByte 0x55#8 (expState .write1 0 [0x01, 0x06, 0x00, 0x65, 0x00, 0x00, 0x99, 0xD5])).rxlen = 8#9 := by
  decide +kernel

/-- R120 and R121 on R110's example pushed back (log entry 14): after 5 bytes RXNEED is 5, and the sixth is refused. -/
theorem test_request_tail_refused : rxNeed (expState .read 10 [0x01, 0x03, 0x00, 0x00, 0x00]) = 5 ∧
    (pushByte 0x0A#8 (expState .read 10 [0x01, 0x03, 0x00, 0x00, 0x00])).rxlen = 5#9 ∧
    (pushByte 0x0A#8 (expState .read 10 [0x01, 0x03, 0x00, 0x00, 0x00])).status.rxovf = true := by decide +kernel

/-- V34: RXNEED before and after the header. -/
theorem test_rxneed : rxNeed (expState .read 4 [0x01, 0x03]) = 3 ∧ rxNeed (expState .read 4 [0x01, 0x03, 0x08]) = 13 ∧
    rxNeed (expState .writeN 5 []) = 8 ∧ rxNeed State.reset = 260 := by decide +kernel

/-- V41: a completion raises irq when IRQEN = 1 only. -/
theorem test_irq : (after (exec .nop { State.reset with ctrl := { en := true, irqen := true } })).irq = true ∧
    (after (exec .nop State.reset)).irq = false := by decide +kernel

/-! ## Witnesses: for every statement with hypotheses, states and operands that meet all of them, clause by clause -/

theorem witness_DecodeAndEncodeAgree : decode 0x3F#32 = .command .rxClear ∧ 0x3F#32 = encode .rxClear := by decide

theorem witness_IllegalWordsRaiseInOrder :
    (∃ s : State, s.eng = .exec 0 ∧ resetPending s = false ∧ s.cmdr.toNat = 256) ∧
    (∃ s : State, s.eng = .exec 0 ∧ resetPending s = false ∧ s.cmdr.toNat = 255 ∧
      s.cmdr.toNat ∉ [0x00, 0x01, 0x02, 0x03, 0x04, 0x10, 0x11, 0x20, 0x21, 0x22, 0x23, 0x30, 0x31, 0x3F]) ∧
    (∃ s : State, s.eng = .exec 0 ∧ resetPending s = false ∧ s.cmdr = encode .rxClear) :=
  ⟨⟨State.reset.withFetchWord 32 0x100, by decide +kernel⟩, ⟨State.reset.withFetchWord 32 0xFF, by decide +kernel⟩,
    ⟨State.reset.withFetchWord 32 0x3F, by decide +kernel⟩⟩

theorem witness_StepRunsTheDecodedCommand : ∃ s : State, resetPending s = false ∧ s.eng = .exec 0 ∧
    decode s.cmdr = .command .serRd :=
  ⟨State.reset.withFetchWord 32 0x21, by decide +kernel⟩

theorem witness_invariant_at_reset : Inv State.reset :=
  ⟨by decide +kernel, by decide +kernel, by decide +kernel, by decide +kernel⟩

theorem witness_EveryStepKeepsTheInvariant : ∃ s t : State, Inv s ∧ step s = .next t :=
  ⟨State.reset, State.reset, witness_invariant_at_reset, rfl⟩

theorem witness_ResetCycleResetsEverything : ∃ (s : State) (inp : PortIn) (rest : List PortIn),
    s.inputs = inp :: rest ∧ inp.rst = true ∧ ∃ a, inp.access = some a ∧ a.hwrite = false :=
  ⟨{ State.reset with eng := .exec 0, inputs := [{ rst := true, access := some (rd 0x020) }] }, _, _, rfl, rfl, _, rfl, rfl⟩

theorem witness_IdleEngineChangesNothing : (∃ s : State, s.eng = .idle ∧ s.inputs = []) ∧
    (∃ (s : State) (rest : List PortIn), s.eng = .idle ∧ s.inputs = { rst := false, access := none } :: rest) :=
  ⟨⟨State.reset, rfl, rfl⟩, ⟨{ State.reset with inputs := [idleInput] }, [], rfl, rfl⟩⟩

/-- Any access can be the host's turn, both of an idle and of a waiting engine. -/
theorem witness_HostTurn (a : Access) : (∃ s s', HostTurn s a s' ∧ s.eng = .idle) ∧
    (∃ s s', HostTurn s a s' ∧ s.eng ≠ .idle) :=
  ⟨⟨hostState .idle a State.reset, _, ⟨[], rfl, .inl ⟨rfl, rfl⟩⟩, rfl⟩,
    ⟨hostState (.exec 1) a State.reset, _, ⟨[], rfl, .inr ⟨0, rfl, rfl⟩⟩, by simp [hostState]⟩⟩

/-- The clauses of R47: the wrong size, the wrong alignment, a read and a write. -/
theorem witness_OnlyAlignedWordAccessesAreLegal :
    (({ rd 0x010 with hsize := 1#3 } : Access).hsize.toNat ≠ 4) ∧ (rd 0x002).haddr.toNat % 4 ≠ 0 ∧
    ((rd 0x1FFC).hsize.toNat = 4 ∧ (rd 0x1FFC).haddr.toNat % 4 = 0 ∧ (rd 0x1FFC).hwrite = false) ∧
    ((wr 0x1FFC 1).hsize.toNat = 4 ∧ (wr 0x1FFC 1).haddr.toNat % 4 = 0 ∧ (wr 0x1FFC 1).hwrite = true) := by decide

/-- The edges of the reserved ranges of R52 are aligned offsets. -/
theorem witness_WindowReadsItsRegisters : ∀ a ∈ [0x044, 0x0FC, 0x178, 0x1FC, 0x278, 0x3FC, 0x810, 0xFFC, 0x1410, 0x1FFC],
    (BitVec.ofNat 13 a).toNat % 4 = 0 ∧ (BitVec.ofNat 13 a).toNat = a ∧
    ((0x044 ≤ a ∧ a ≤ 0x0FC) ∨ (0x178 ≤ a ∧ a ≤ 0x1FC) ∨ (0x278 ≤ a ∧ a ≤ 0x3FC) ∨ (0x810 ≤ a ∧ a ≤ 0xFFC) ∨
      0x1410 ≤ a) := by decide

/-- The clauses of R50: STATUS; another offset while BUSY; and, idle, every kind of offset at an edge of its range. -/
theorem witness_HostWriteInItsOrder : (∃ s : State, s.eng ≠ .idle) ∧ State.reset.eng = .idle ∧
    (0x004#13).toNat % 4 = 0 ∧ (0x008#13).toNat = 0x008 ∧ (0x02C#13).toNat = 0x02C ∧
    (0x174#13).toNat = 0x100 + 4 * (29 : Fin 30).val ∧ (0x80C#13).toNat = 0x400 + 4 * (259 : Fin 260).val ∧
    (0x178 ≤ (0x178#13).toNat ∧ (0x178#13).toNat ≤ 0x3FC) ∧ 0x810 ≤ (0x810#13).toNat :=
  ⟨⟨hostState (.exec 1) (wr 0x010 5) State.reset, by simp [hostState]⟩, by decide +kernel⟩

theorem witness_WriteThenReadBack : State.reset.eng = .idle ∧ (0x100 ≤ (0x174#13).toNat ∧ (0x174#13).toNat ≤ 0x174) ∧
    (0x400 ≤ (0x80C#13).toNat ∧ (0x80C#13).toNat ≤ 0x80C ∧ (0x80C#13).toNat % 4 = 0) ∧
    ∃ off' : BitVec 13, off'.toNat % 4 = 0 ∧ off' ≠ 0x80C#13 :=
  ⟨rfl, by decide, by decide, 0x808#13, by decide⟩

/-- An access of R166 and the two of R81 (with `witness_HostTurn`). -/
theorem witness_WritesWhileBusyAreDropped : (wr 0x010 5).hsize.toNat = 4 ∧ (wr 0x010 5).haddr.toNat % 4 = 0 ∧
    (wr 0x010 5).hwrite = true ∧ (wr 0x010 5).haddr.toNat ≠ 0x004 := by decide

theorem witness_CommandAcceptance : (wr 0x008 0x21).hsize.toNat = 4 ∧ (wr 0x008 0x21).haddr.toNat = 0x008 ∧
    (wr 0x008 0x21).hwrite = true := by decide

theorem witness_RxneedFollowsTheExpectation :
    (∃ s : State, s.exp.fc = .read ∧ s.rxlen.toNat = 2) ∧ (∃ s : State, s.exp.fc = .read ∧ s.rxlen.toNat = 3) ∧
    (∃ s : State, s.exp.fc = .write1) ∧ (∃ s : State, s.exp.fc = .writeN) ∧ (∃ s : State, s.exp.fc = .none) ∧
    (∃ s t : State, t.exp = s.exp ∧ t.rxlen = s.rxlen ∧ t.rxbuf = s.rxbuf ∧ t ≠ s) :=
  ⟨⟨expState .read 4 [1, 3], by decide +kernel⟩, ⟨expState .read 4 [1, 3, 8], by decide +kernel⟩,
    ⟨expState .write1 0 [], rfl⟩, ⟨expState .writeN 5 [], rfl⟩, ⟨State.reset, rfl⟩,
    ⟨State.reset, argState 1 0 0, by decide +kernel⟩⟩

theorem witness_PushStoresOnlyBelowRxneed :
    (∃ s : State, s.eng = .idle ∧ s.rxlen.toNat + 1 = rxNeed s) ∧ (∃ s : State, s.eng = .idle ∧ rxNeed s = s.rxlen.toNat) ∧
    (∃ s : State, s.eng ≠ .idle) :=
  ⟨⟨expState .write1 0 [1, 6, 0, 0x65, 0, 0, 0x99], by decide +kernel⟩,
    ⟨expState .write1 0 [1, 6, 0, 0x65, 0, 0, 0x99, 0xD5], by decide +kernel⟩,
    ⟨hostState (.exec 1) (wr 0x02C 5) State.reset, by simp [hostState]⟩⟩

theorem witness_IrqFollowsDoneAndMask : (∃ t, exec .nop State.reset = .next t) ∧ (0x2#32).getLsbD 1 = true ∧
    State.reset.eng = .idle :=
  ⟨⟨_, rfl⟩, by decide, rfl⟩

/-- PARSE goes on. -/
theorem parse_after (s : State) : exec .parse s = .next (after (exec .parse s)) := by
  simp only [exec, execParse]
  split
  · rfl
  · split <;> rfl

/-- PARSE_RAW goes on. -/
theorem parseRaw_after (s : State) : exec .parseRaw s = .next (after (exec .parseRaw s)) := by
  simp only [exec, execParseRaw]
  split
  · rfl
  · split <;> rfl

/-- A failing command of each kind R145 and R125 tell apart. -/
theorem witness_FailedCommandChangesOnlyStatus :
    (∃ t, exec .serRd State.reset = .next t ∧ t.status.error = some .cfgDisconnected) ∧
    (∃ t, exec .parse State.reset = .next t ∧ t.status.error = some .cfgDisconnected) ∧
    (∃ (s t : State) (f : List Byte), exec .parseRaw s = .next t ∧ t.status.error = some .protoCrc ∧ Received s f) := by
  refine ⟨⟨_, rfl, rfl⟩, ⟨_, rfl, rfl⟩, rxState [0x01, 0x03, 0x40, 0x22], after (exec .parseRaw (rxState [0x01, 0x03, 0x40, 0x22])),
    [0x01, 0x03, 0x40, 0x22], parseRaw_after _, by decide +kernel, ?_⟩
  unfold Received StartsWith
  decide +kernel

/-- Every command goes on to a next state, so the frames speak of something. -/
theorem witness_frames : ∀ i ∈ opcodeMap.map Prod.snd, ∃ t, exec i State.reset = .next t := by
  intro i _
  cases i <;> exact ⟨_, rfl⟩

theorem witness_NoCommandReadsAFlag : ∃ (s t t' : State) (st : Status), st ≠ s.status ∧ exec .nop s = .next t ∧
    exec .nop { s with status := st } = .next t' :=
  ⟨State.reset, _, _, { State.reset.status with haz := true }, by decide, rfl, rfl⟩

theorem witness_AcceptedCommandCompletesUnlessReset : ∃ (s : State) (n : Nat), s.eng = .exec n ∧ NoResetIn (n + 1) s ∧
    s.inputs ≠ [] ∧ ∃ t, RunsTo (n + 1) s t := by
  refine ⟨{ State.reset with eng := .exec 0, inputs := [idleInput] }, 0, rfl, by unfold NoResetIn; decide, by decide, _,
    (runsTo_succ (t := finish none { State.reset with eng := .exec 0, inputs := [idleInput] }) rfl 0 _).2
      ((runsTo_zero _ _).2 rfl)⟩

theorem witness_CrcByteFoldsOneByte : (∃ s : State, s.arg0.toNat = 0x100) ∧ (∃ s : State, s.arg0.toNat = 0xFF) :=
  ⟨⟨argState 0 0x100 0, by decide +kernel⟩, ⟨argState 0 0xFF 0, by decide +kernel⟩⟩

theorem witness_CrcTxOfTheTransmitBuffer : (∃ s : State, s.txlen.toNat = 261) ∧
    (∃ (s : State) (bs : List Byte), bs.length = s.txlen.toNat ∧ StartsWith s.txbuf bs ∧ bs ≠ []) := by
  refine ⟨⟨{ State.reset with txlen := 261#9 }, by decide⟩, txState [1, 3], [1, 3], by decide +kernel, ?_, by decide⟩
  unfold StartsWith
  decide +kernel

theorem witness_CrcRxOfTheReceiveBuffer : ∃ (s : State) (f : List Byte), Received s f ∧ f ≠ [] := by
  refine ⟨rxState [1, 3], [1, 3], ?_, by decide⟩
  unfold Received StartsWith
  decide +kernel

theorem witness_CombineJoinsTwoHalves : (∃ s : State, s.arg0.toNat = 0x10000) ∧ (∃ s : State, s.arg1.toNat = 0x10000) ∧
    (∃ s : State, s.arg0.toNat = 0xFFFF ∧ s.arg1.toNat = 0xFFFF) :=
  ⟨⟨argState 0 0x10000 0, by decide +kernel⟩, ⟨argState 0 0 0x10000, by decide +kernel⟩,
    ⟨argState 0 0xFFFF 0xFFFF, by decide +kernel⟩⟩

/-- TXLEN at 1 and 259, and bodies of 2 and of 258 bytes. -/
theorem witness_SerAppendAppendsTheCrc : (∃ s : State, s.txlen.toNat = 1) ∧ (∃ s : State, s.txlen.toNat = 259) ∧
    (∃ (s : State) (body : List Byte), body.length = s.txlen.toNat ∧ StartsWith s.txbuf body ∧ body.length = 2) ∧
    (∃ (s : State) (body : List Byte), body.length = s.txlen.toNat ∧ StartsWith s.txbuf body ∧ body.length = 258) := by
  refine ⟨⟨{ State.reset with txlen := 1#9 }, by decide⟩, ⟨{ State.reset with txlen := 259#9 }, by decide⟩,
    ⟨txState [1, 3], [1, 3], by decide +kernel, ?_, by decide⟩,
    ⟨{ State.reset with txlen := 258#9 }, List.replicate 258 0#8, List.length_replicate, ?_, List.length_replicate⟩⟩
  · unfold StartsWith
    decide +kernel
  · intro i h
    rw [List.length_replicate] at h
    rw [List.getElem_replicate]
    exact (Vector.getElem?_eq_getElem (by omega)).trans (by simp [State.reset])

/-- The clauses of the three builders at the edges of their ranges. -/
theorem witness_builders :
    (∃ s : State, s.ctrl.en = false) ∧
    (∃ s : State, s.ctrl.en = true ∧ s.slave.toNat = 63) ∧
    (∃ s : State, s.ctrl.en = true ∧ s.slave.toNat = 62 ∧ s.arg0.toNat = 0x10000) ∧
    (∃ s : State, s.ctrl.en = true ∧ s.slave.toNat = 62 ∧ s.arg0.toNat = 0xFFFF ∧ s.arg1.toNat = 0) ∧
    (∃ s : State, s.ctrl.en = true ∧ s.slave.toNat = 62 ∧ s.arg0.toNat = 0xFFFF ∧ s.arg1.toNat = 1) ∧
    (∃ s : State, s.ctrl.en = true ∧ s.slave.toNat = 62 ∧ s.arg0.toNat = 0xFFFF ∧ s.arg1.toNat = 30) ∧
    (∃ s : State, s.ctrl.en = true ∧ s.slave.toNat = 62 ∧ s.arg0.toNat = 0xFFFF ∧ s.arg1.toNat = 31) ∧
    (∃ s : State, s.ctrl.en = true ∧ s.slave.toNat = 62 ∧ s.arg0.toNat = 0xFFFF ∧ s.arg1.toNat = 0xFFFF) ∧
    (∃ s : State, s.ctrl.en = true ∧ s.slave.toNat = 62 ∧ s.arg0.toNat = 0xFFFF ∧ s.arg1.toNat = 0x10000) :=
  ⟨⟨State.reset, rfl⟩, ⟨argState 63 0 0, by decide +kernel⟩, ⟨argState 62 0x10000 1, by decide +kernel⟩,
    ⟨argState 62 0xFFFF 0, by decide +kernel⟩, ⟨argState 62 0xFFFF 1, by decide +kernel⟩,
    ⟨argState 62 0xFFFF 30, by decide +kernel⟩, ⟨argState 62 0xFFFF 31, by decide +kernel⟩,
    ⟨argState 62 0xFFFF 0xFFFF, by decide +kernel⟩, ⟨argState 62 0xFFFF 0x10000, by decide +kernel⟩⟩

/-- The values of SER_WRN, and the words of a read exchange: 1 and 30 of them. -/
theorem witness_SerWrnBuildsAWriteRequest :
    (∃ vs : List Half, vs.length = (argState 1 0 1).arg1.toNat ∧ StartsWith (argState 1 0 1).val vs) ∧
    (∃ vs : List Half, vs.length = (argState 1 0 30).arg1.toNat ∧ StartsWith (argState 1 0 30).val vs) := by
  refine ⟨⟨[0#16], by decide +kernel, ?_⟩, ⟨List.replicate 30 0#16, by decide +kernel, ?_⟩⟩ <;>
  · unfold StartsWith
    decide +kernel

theorem witness_ReadExchangeReturnsTheWords : ∃ (s : State) (words : List Half), s.ctrl.en = true ∧ s.slave.toNat ≤ 62 ∧
    s.arg0.toNat ≤ 0xFFFF ∧ 1 ≤ s.arg1.toNat ∧ s.arg1.toNat ≤ 30 ∧ words.length = s.arg1.toNat :=
  ⟨argState 62 0xFFFF 30, List.replicate 30 0x1234#16, by decide +kernel⟩

/-- The three failures of PARSE before the frame is looked at. -/
theorem witness_ParseChecksBeforeTheFrame : (∃ s : State, s.ctrl.en = false) ∧
    (∃ s : State, s.ctrl.en = true ∧ s.exp.fc = .none) ∧
    (∃ s : State, s.ctrl.en = true ∧ s.exp.fc ≠ .none ∧ s.rxlen.toNat < rxNeed s) :=
  ⟨⟨State.reset, rfl⟩, ⟨argState 1 0 0, by decide +kernel⟩, ⟨expState .read 4 [], by decide +kernel⟩⟩

/-- A complete frame for each of the four checks: the frames of V24, V25, V26 and V21. -/
theorem witness_ParseChecksTheFrame :
    (∃ (s : State) (f : List Byte), s.ctrl.en = true ∧ s.exp.fc ≠ .none ∧ rxNeed s ≤ s.rxlen.toNat ∧ Received s f ∧ f.getD 0 0#8 ≠ s.exp.addr) ∧
    (∃ (s : State) (f : List Byte), s.ctrl.en = true ∧ s.exp.fc ≠ .none ∧ rxNeed s ≤ s.rxlen.toNat ∧ Received s f ∧ f.getD 0 0#8 = s.exp.addr ∧
      f.getD 1 0#8 ≠ s.exp.fc.code) ∧
    (∃ (s : State) (f : List Byte), s.ctrl.en = true ∧ s.exp.fc = .read ∧ rxNeed s ≤ s.rxlen.toNat ∧ Received s f ∧ f.getD 0 0#8 = s.exp.addr ∧
      f.getD 1 0#8 = s.exp.fc.code ∧ (f.getD 2 0#8).toNat ≠ 2 * s.exp.qty.toNat) ∧
    (∃ (s : State) (f : List Byte), s.ctrl.en = true ∧ s.exp.fc = .read ∧ rxNeed s ≤ s.rxlen.toNat ∧ Received s f ∧ f.getD 0 0#8 = s.exp.addr ∧
      f.getD 1 0#8 = s.exp.fc.code ∧ (f.getD 2 0#8).toNat = 2 * s.exp.qty.toNat ∧ computedCrc f ≠ carriedCrc f) := by
  unfold Received StartsWith
  exact ⟨⟨expState .write1 0 [2, 6, 0, 0, 0, 0, 0, 0], [2, 6, 0, 0, 0, 0, 0, 0], by decide +kernel⟩,
    ⟨expState .write1 0 [1, 5, 0, 0, 0, 0, 0, 0], [1, 5, 0, 0, 0, 0, 0, 0], by decide +kernel⟩,
    ⟨expState .read 4 [1, 3, 0, 0x20, 0xF0], [1, 3, 0, 0x20, 0xF0], by decide +kernel⟩,
    ⟨expState .read 1 [1, 3, 2, 0, 0, 0, 0], [1, 3, 2, 0, 0, 0, 0], by decide +kernel⟩⟩

theorem witness_ParseDecodesAReadResponse : ∃ (s : State) (f : List Byte), Inv s ∧ s.ctrl.en = true ∧ s.exp.fc = .read ∧
    rxNeed s ≤ s.rxlen.toNat ∧ Received s f ∧ f.getD 0 0#8 = s.exp.addr ∧ f.getD 1 0#8 = 0x03#8 ∧
    (f.getD 2 0#8).toNat = 2 * s.exp.qty.toNat ∧ computedCrc f = carriedCrc f := by
  refine ⟨expState .read 4 v20, v20, ⟨by decide +kernel, by decide +kernel, by decide +kernel, by decide +kernel⟩, ?_⟩
  unfold Received StartsWith
  decide +kernel

theorem witness_ParseDecodesAnEcho :
    (∃ (s : State) (f : List Byte), s.ctrl.en = true ∧ (s.exp.fc = .write1 ∧ f.getD 1 0#8 = 0x06#8) ∧ 8 ≤ s.rxlen.toNat ∧
      Received s f ∧ f.getD 0 0#8 = s.exp.addr ∧ computedCrc f = carriedCrc f) ∧
    (∃ (s : State) (f : List Byte), s.ctrl.en = true ∧ (s.exp.fc = .writeN ∧ f.getD 1 0#8 = 0x10#8) ∧ 8 ≤ s.rxlen.toNat ∧
      Received s f ∧ f.getD 0 0#8 = s.exp.addr ∧ computedCrc f = carriedCrc f) := by
  unfold Received StartsWith
  exact ⟨⟨expState .write1 0 [0x01, 0x06, 0x00, 0x65, 0x00, 0x00, 0x99, 0xD5],
      [0x01, 0x06, 0x00, 0x65, 0x00, 0x00, 0x99, 0xD5], by decide +kernel⟩,
    ⟨expState .writeN 5 [0x01, 0x10, 0x00, 0x65, 0x00, 0x05, 0x10, 0x15],
      [0x01, 0x10, 0x00, 0x65, 0x00, 0x05, 0x10, 0x15], by decide +kernel⟩⟩

theorem witness_AcceptedResponseMatchesTheExpectation : ∃ (s t : State) (f : List Byte), exec .parse s = .next t ∧ t.status.error = none ∧
    Received s f := by
  refine ⟨expState .read 4 v20, after (exec .parse (expState .read 4 v20)), v20, parse_after _, by decide +kernel, ?_⟩
  unfold Received StartsWith
  decide +kernel

/-- RXLEN at 3 and 4, with a wrong and with a right CRC. -/
theorem witness_ParseRawChecksOnlyTheCrc : (∃ s : State, s.rxlen.toNat = 3) ∧
    (∃ (s : State) (f : List Byte), Received s f ∧ f.length = 4 ∧ computedCrc f ≠ carriedCrc f) ∧
    (∃ (s : State) (f : List Byte), Received s f ∧ f.length = 4 ∧ computedCrc f = carriedCrc f) := by
  unfold Received StartsWith
  exact ⟨⟨rxState [1, 3, 0x40], by decide +kernel⟩,
    ⟨rxState [0x01, 0x03, 0x40, 0x22], [0x01, 0x03, 0x40, 0x22], by decide +kernel⟩,
    ⟨rxState [0x01, 0x03, 0x40, 0x21], [0x01, 0x03, 0x40, 0x21], by decide +kernel⟩⟩

theorem witness_AppendedFrameLoopsBack : (∃ s : State, s.txlen.toNat = 2) ∧ (∃ s : State, s.txlen.toNat = 258) :=
  ⟨⟨{ State.reset with txlen := 2#9 }, by decide⟩, ⟨{ State.reset with txlen := 258#9 }, by decide⟩⟩

theorem witness_WriteExchangeReturnsTheEcho : ∃ s : State, s.ctrl.en = true ∧ s.slave.toNat ≤ 62 ∧ s.arg0.toNat ≤ 0xFFFF ∧
    s.arg1.toNat ≤ 0xFFFF ∧ 1 ≤ s.arg1.toNat ∧ s.arg1.toNat ≤ 30 :=
  ⟨argState 62 0xFFFF 30, by decide +kernel⟩

end Sys2Proof.Tests
end

/-!
SUPPORT. How a command ends (40_command_cycle.md R82, 60_exceptions.md R144 and R145): the checks each command makes, and
the state it leaves when one fails and when all pass. `exec_cases` is the inversion of `exec` that the statements about
every command are proved from.
-/

namespace Sys2Proof.Machine

/-- The checks a command makes before it looks at a frame, in the order of its rule. -/
def entryChecks : Instr → State → List (Bool × CmdError)
  | .nop, _ => []
  | .crcInit, _ => []
  | .crcByte, s => [(exceeds8 s.arg0, .cfgRange)]
  | .crcTx, s => [(decide (Config.bufBytes < s.txlen.toNat), .cfgLen)]
  | .crcRx, _ => []
  | .split, _ => []
  | .combine, s => [(exceeds16 s.arg0 || exceeds16 s.arg1, .cfgRange)]
  | .serAppend, s => [(s.txlen.toNat < 2 || 258 < s.txlen.toNat, .cfgLen)]
  | .serRd, s => commonChecks s ++ [(exceeds16 s.arg0, .cfgRange), (badCount s.arg1, .cfgCount)]
  | .serWr1, s => commonChecks s ++ [(exceeds16 s.arg0 || exceeds16 s.arg1, .cfgRange)]
  | .serWrn, s => commonChecks s ++ [(exceeds16 s.arg0, .cfgRange), (badCount s.arg1, .cfgCount)]
  | .parse, s => acquisitionChecks s
  | .parseRaw, s => [(decide (s.rxlen.toNat < 4), .commShort)]
  | .rxClear, _ => []

/-- The checks PARSE and PARSE_RAW make on the received frame, once record(f) is done. -/
def frameChecks : Instr → State → List (Bool × CmdError)
  | .parse, s => contentChecks (rxBytes s) s
  | .parseRaw, s => [(frameCalc (rxBytes s) != frameRecv (rxBytes s), .protoCrc)]
  | _, _ => []

/-- What a failed entry check leaves: PARSE and PARSE_RAW have cleared CRCOK, the others have written nothing. -/
def leftByRefusal : Instr → State → State
  | .parse, s => clearCrcok s
  | .parseRaw, s => clearCrcok s
  | _, s => s

/-- What a failed frame check leaves: CRCOK ← 0 and record(f). -/
def leftByRejection (s : State) : State := record (rxBytes s) (clearCrcok s)

/-- What a command leaves when every check passes, before the completion flags. -/
def leftBySuccess : Instr → State → State
  | .nop, s => s
  | .crcInit, s => { s with crc := Config.crcInit }
  | .crcByte, s => { s with crc := crcStep s.crc (low8 s.arg0) }
  | .crcTx, s => putCrc (crc16 (txBytes s)) s
  | .crcRx, s => putCrc (crc16 (rxBytes s)) s
  | .split, s => { s with res0 := (splitU32 s.arg0).1.setWidth 32, res1 := (splitU32 s.arg0).2.setWidth 32 }
  | .combine, s => { s with res0 := combineU32 (low16 s.arg0) (low16 s.arg1) }
  | .serAppend, s => flushRx { s with
      txbuf := storeAt s.txbuf s.txlen.toNat (crcBytes (crc16 (txBytes s)))
      txlen := BitVec.ofNat 9 (s.txlen.toNat + 2)
      crc := crc16 (txBytes s)
      exp := { addr := 0#8, fc := .none, qty := 0#5 } }
  | .serRd, s => commit (serialize (readBody s.slave (low16 s.arg0) (low16 s.arg1))) .read (s.arg1.extractLsb' 0 5) s
  | .serWr1, s => commit (serialize (write1Body s.slave (low16 s.arg0) (low16 s.arg1))) .write1 0#5 s
  | .serWrn, s => commit (serialize (writeNBody s.slave (low16 s.arg0) (low16 s.arg1)
      (valBytes s (low16 s.arg1).toNat))) .writeN (s.arg1.extractLsb' 0 5) s
  | .parse, s => if s.exp.fc = .read then decodeRead (rxBytes s) (leftByRejection s)
      else decodeEcho (rxBytes s) (leftByRejection s)
  | .parseRaw, s => leftByRejection s
  | .rxClear, s => flushRx s

/-- PARSE of a 0x03 response decodes its words. -/
theorem leftBySuccess_parse_of_read {s : State} (h : s.exp.fc = .read) :
    leftBySuccess .parse s = decodeRead (rxBytes s) (leftByRejection s) := if_pos h

/-- PARSE of any other response decodes an echo. -/
theorem leftBySuccess_parse_of_ne_read {s : State} (h : s.exp.fc ≠ .read) :
    leftBySuccess .parse s = decodeEcho (rxBytes s) (leftByRejection s) := if_neg h

/-- A single check decides by its own condition. -/
theorem firstError_singleton_eq_some {b : Bool} {e e' : CmdError} :
    firstError [(b, e)] = some e' ↔ b = true ∧ e = e' := by
  cases b <;> simp [firstError]

theorem firstError_singleton_eq_none {b : Bool} {e : CmdError} : firstError [(b, e)] = none ↔ b = false := by
  cases b <;> simp [firstError]

/-- A failing entry check ends the command with its error. -/
theorem exec_of_entryChecks_fail {i : Instr} {s : State} {e : CmdError} (h : firstError (entryChecks i s) = some e) :
    exec i s = .next (finish (some e) (leftByRefusal i s)) := by
  cases i with
  | nop | crcInit | crcRx | split | rxClear => exact absurd h (by simp [entryChecks, firstError])
  | crcByte | crcTx | combine | serAppend | parseRaw =>
    obtain ⟨hfail, rfl⟩ := firstError_singleton_eq_some.1 h
    exact if_pos (by simpa using hfail)
  | serRd | serWr1 | serWrn | parse =>
    simp only [entryChecks] at h
    simp only [exec, execSerRd, execSerWr1, execSerWrn, execParse, h]
    rfl

/-- A failing frame check ends the command with its error, and record(f) is kept. -/
theorem exec_of_frameChecks_fail {i : Instr} {s : State} {e : CmdError} (h : firstError (entryChecks i s) = none)
    (hf : firstError (frameChecks i s) = some e) : exec i s = .next (finish (some e) (leftByRejection s)) := by
  cases i with
  | parse =>
    simp only [entryChecks, frameChecks] at h hf
    simp only [exec, execParse, h, hf]
    rfl
  | parseRaw =>
    obtain ⟨hfail, rfl⟩ := firstError_singleton_eq_some.1 hf
    have hlong := firstError_singleton_eq_none.1 h
    exact (if_neg (by simpa using hlong)).trans (if_pos hfail)
  | _ => exact absurd hf (by simp [frameChecks, firstError])

/-- A command whose checks all pass ends with no error. -/
theorem exec_of_checks_pass {i : Instr} {s : State} (h : firstError (entryChecks i s) = none)
    (hf : firstError (frameChecks i s) = none) : exec i s = .next (finish none (leftBySuccess i s)) := by
  cases i with
  | nop | crcInit | crcRx | split | rxClear => rfl
  | crcByte | crcTx | combine | serAppend =>
    have hpass := firstError_singleton_eq_none.1 h
    exact if_neg (by simpa using hpass)
  | serRd | serWr1 | serWrn =>
    simp only [entryChecks] at h
    simp only [exec, execSerRd, execSerWr1, execSerWrn, h]
    rfl
  | parse =>
    simp only [entryChecks, frameChecks] at h hf
    simp only [exec, execParse, h, hf]
    rfl
  | parseRaw =>
    have hlong := firstError_singleton_eq_none.1 h
    have hcrc := firstError_singleton_eq_none.1 hf
    exact (if_neg (by simpa using hlong)).trans (if_neg (by simpa using hcrc))

/-- R82, R144: a command is refused by an entry check, rejects the received frame, or succeeds. -/
theorem exec_cases {i : Instr} {s t : State} (h : exec i s = .next t) :
    (∃ e, firstError (entryChecks i s) = some e ∧ t = finish (some e) (leftByRefusal i s)) ∨
    (∃ e, firstError (entryChecks i s) = none ∧ firstError (frameChecks i s) = some e ∧
      t = finish (some e) (leftByRejection s)) ∨
    (firstError (entryChecks i s) = none ∧ firstError (frameChecks i s) = none ∧ t = finish none (leftBySuccess i s)) := by
  cases he : firstError (entryChecks i s) with
  | some e => exact .inl ⟨e, rfl, Host.Outcome.next.inj (h.symm.trans (exec_of_entryChecks_fail he))⟩
  | none =>
    cases hf : firstError (frameChecks i s) with
    | some e => exact .inr (.inl ⟨e, rfl, rfl, Host.Outcome.next.inj (h.symm.trans (exec_of_frameChecks_fail he hf))⟩)
    | none => exact .inr (.inr ⟨rfl, rfl, Host.Outcome.next.inj (h.symm.trans (exec_of_checks_pass he hf))⟩)

/-- Only PARSE and PARSE_RAW look at a received frame. -/
theorem parses_of_frameChecks_fail {i : Instr} {s : State} {e : CmdError} (h : firstError (frameChecks i s) = some e) :
    i = .parse ∨ i = .parseRaw := by
  cases i with
  | parse => exact .inl rfl
  | parseRaw => exact .inr rfl
  | _ => exact absurd h (by simp [frameChecks, firstError])

end Sys2Proof.Machine

/-!
SUPPORT. The invariant of 10_state.md R40: it holds at reset, and a completion, a host access, an idle cycle and a reset
cycle keep it.
-/

namespace Sys2Proof.Machine

/-- A flushed receive side is within RXNEED whatever is expected, so only the expectation's own ranges are left to show. -/
theorem Inv.of_flushed {s : State} (hflush : s.rxlen = 0#9)
    (hqty : s.exp.fc = .read ∨ s.exp.fc = .writeN → 1 ≤ s.exp.qty.toNat ∧ s.exp.qty.toNat ≤ Config.maxQty)
    (haddr : s.exp.fc ≠ .none → s.exp.addr.toNat ≤ Config.maxSlaveAddr) : Inv s where
  rxlen_le := by simp [hflush]
  rxneed_le := (rxNeed_bounds s).2
  qty := hqty
  addr := haddr

/-- R40 at reset (R41): nothing is received and nothing is expected. -/
theorem Inv.reset : Inv State.reset := .of_flushed rfl (by simp [State.reset]) (by simp [State.reset])

/-! ## Completions -/

/-- The checks of R109 that a builder passed bound SLAVE.ADDR. -/
theorem slave_le_of_commonChecks {s : State} {l : List (Bool × CmdError)}
    (h : firstError (commonChecks s ++ l) = none) : s.slave.toNat ≤ Config.maxSlaveAddr := by
  have hb : badSlave s.slave = false := (firstError_eq_none _).1 h (badSlave s.slave, .cfgAddr) (by simp [commonChecks])
  simpa [badSlave] using hb

/-- The COUNT check that a builder passed bounds the quantity it stores. -/
theorem qty_of_countCheck {s : State} {l : List (Bool × CmdError)} (h : firstError l = none)
    (hmem : (badCount s.arg1, .cfgCount) ∈ l) :
    1 ≤ (s.arg1.extractLsb' 0 5).toNat ∧ (s.arg1.extractLsb' 0 5).toNat ≤ Config.maxQty := by
  have hb : badCount s.arg1 = false := (firstError_eq_none _).1 h _ hmem
  rw [Bool.eq_false_iff, ne_eq, badCount_iff] at hb
  simp only [BitVec.extractLsb'_toNat, Nat.shiftRight_zero, Config.maxQty]
  omega

/-- R109's commit keeps R40 when its address and quantity are in range. -/
theorem Inv.of_commit {s : State} {fc : ExpFc} {q : BitVec 5} (frame : List Byte)
    (hslave : s.slave.toNat ≤ Config.maxSlaveAddr)
    (hq : fc = .read ∨ fc = .writeN → 1 ≤ q.toNat ∧ q.toNat ≤ Config.maxQty) : Inv (commit frame fc q s) :=
  .of_flushed rfl hq fun _ => hslave

/-- The end of the completion step keeps R40. -/
theorem Inv.after_finish {s : State} (h : Inv s) (r : Option CmdError) : Inv (finish r s) := h.of_congr rfl rfl rfl

/-- A refused command keeps R40. -/
theorem Inv.after_refusal {s : State} (h : Inv s) (i : Instr) : Inv (leftByRefusal i s) := by
  cases i with
  | parse | parseRaw => exact h.of_congr rfl rfl rfl
  | _ => exact h

/-- record(f) keeps R40. -/
theorem Inv.after_rejection {s : State} (h : Inv s) : Inv (leftByRejection s) := h.of_congr rfl rfl rfl

/-- A successful command keeps R40: the builders by their checks, SER_APPEND and RX_CLEAR by the flush, and the others
because they touch neither EXP nor the receive side. -/
theorem Inv.after_success {i : Instr} {s : State} (h : Inv s) (hc : firstError (entryChecks i s) = none) :
    Inv (leftBySuccess i s) := by
  cases i with
  | nop | crcInit | crcByte | crcTx | crcRx | split | combine | parseRaw => exact h.of_congr rfl rfl rfl
  | serAppend => exact .of_flushed rfl (by simp [leftBySuccess]) (by simp [leftBySuccess])
  | serRd | serWrn =>
    exact .of_commit _ (slave_le_of_commonChecks hc) fun _ => qty_of_countCheck hc (by simp [entryChecks])
  | serWr1 => exact .of_commit _ (slave_le_of_commonChecks hc) (by simp)
  | parse =>
    by_cases hfc : s.exp.fc = .read
    · exact leftBySuccess_parse_of_read hfc ▸ h.of_congr rfl rfl rfl
    · exact leftBySuccess_parse_of_ne_read hfc ▸ h.of_congr rfl rfl rfl
  | rxClear => exact .of_flushed rfl h.qty h.addr

/-- Every command keeps R40. -/
theorem Inv.after_exec {i : Instr} {s t : State} (h : Inv s) (ht : exec i s = .next t) : Inv t := by
  obtain ⟨e, -, rfl⟩ | ⟨e, -, -, rfl⟩ | ⟨hc, -, rfl⟩ := exec_cases ht
  · exact (h.after_refusal i).after_finish _
  · exact h.after_rejection.after_finish _
  · exact (h.after_success hc).after_finish _

/-- Every completion keeps R40, of an illegal word too. -/
theorem Inv.after_completeCommand {s t : State} (h : Inv s) (ht : completeCommand s = .next t) : Inv t := by
  unfold completeCommand at ht
  cases hd : decode s.cmdr with
  | command i => exact h.after_exec (by simpa only [hd] using ht)
  | reserved | opcode =>
    simp only [hd, raiseError, Host.Outcome.next.injEq] at ht
    exact ht ▸ h.after_finish _

/-! ## Cycles of the outside world -/

/-- RXLEN + 1 in numbers, while RXLEN is below RXNEED. -/
theorem toNat_rxlen_succ {s : State} (hlt : s.rxlen.toNat < rxNeed s) :
    (s.rxlen + 1#9).toNat = s.rxlen.toNat + 1 := by
  have hle := (rxNeed_bounds s).2
  rw [BitVec.toNat_add, BitVec.toNat_ofNat]
  omega

/-- One byte more is still within RXNEED. The one byte that changes RXNEED is the third of a 0x03 response, which takes it
from 3 to 5 or more (R120). -/
theorem rxlen_le_rxNeed_of_pushed {s t : State} {b : Byte} (hlt : s.rxlen.toNat < rxNeed s) (hexp : t.exp = s.exp)
    (hlen : t.rxlen.toNat = s.rxlen.toNat + 1) (hbuf : t.rxbuf = s.rxbuf.setIfInBounds s.rxlen.toNat b) :
    t.rxlen.toNat ≤ rxNeed t := by
  cases hfc : s.exp.fc with
  | none =>
    rw [rxNeed_noExp hfc] at hlt
    rw [rxNeed_noExp (hexp ▸ hfc)]
    omega
  | write1 | writeN =>
    rw [rxNeed_echo (by simp [hfc])] at hlt
    rw [rxNeed_echo (by simp [hexp, hfc])]
    omega
  | read =>
    have htfc : t.exp.fc = .read := hexp ▸ hfc
    by_cases hheader : t.rxlen.toNat < 3
    · rw [rxNeed_header htfc hheader]
      omega
    · rw [rxNeed_body htfc (by omega)]
      by_cases hthird : s.rxlen.toNat = 2
      · omega
      · rw [rxNeed_body hfc (by omega)] at hlt
        have hkeep : t.rxbuf[2] = s.rxbuf[2] := by
          simp only [hbuf]
          exact Vector.getElem_setIfInBounds_ne (by omega) hthird
        rw [hkeep]
        omega

/-- A push keeps R40. -/
theorem Inv.after_pushByte {s : State} (h : Inv s) (b : Byte) : Inv (pushByte b s) := by
  obtain ⟨hlt, heq⟩ | ⟨-, heq⟩ := pushByte_cases b s <;> rw [heq]
  · exact ⟨rxlen_le_rxNeed_of_pushed hlt rfl (toNat_rxlen_succ hlt) rfl, (rxNeed_bounds _).2, h.qty, h.addr⟩
  · exact h.of_congr rfl rfl rfl

/-- A write to any place of the window keeps R40: only the push touches the receive side, and none writes EXP. -/
theorem Inv.after_writeReg {s : State} (h : Inv s) (r : Reg) (v : Word) : Inv (writeReg r v s) := by
  cases r with
  | rxdata => exact h.after_pushByte _
  | _ => exact h.of_congr rfl rfl rfl

/-- A host write keeps R40. -/
theorem Inv.after_hostWrite {s : State} (h : Inv s) (off : BitVec 13) (v : Word) : Inv (hostWrite off v s) := by
  obtain ⟨-, heq⟩ | ⟨-, -, heq⟩ | ⟨-, -, heq⟩ := hostWrite_cases off v s <;> rw [heq]
  · exact h.of_congr rfl rfl rfl
  · exact h.of_congr rfl rfl rfl
  · exact h.after_writeReg _ _

/-- A host access keeps R40. -/
theorem Inv.after_hostAccess {s : State} (h : Inv s) (a : Access) : Inv (hostAccess a s) := by
  obtain ⟨-, -, heq⟩ | ⟨r, heq⟩ := hostAccess_cases a s <;> rw [heq]
  · exact (h.after_hostWrite a.haddr a.hwdata).of_congr rfl rfl rfl
  · exact h.of_congr rfl rfl rfl

/-- One cycle of an engine's wait keeps R40. -/
theorem Inv.after_tick {s : State} (h : Inv s) : Inv (tick s) := h.of_congr (by simp) (by simp) (by simp)

/-- A cycle of the outside world without reset keeps R40. -/
theorem Inv.after_hostCycle {s : State} (h : Inv s) : Inv (hostCycle s) := by
  unfold hostCycle
  split
  · exact h.after_tick
  · next inp rest _ =>
    have hrest : Inv { s with inputs := rest } := h.of_congr rfl rfl rfl
    split
    · exact hrest.after_tick.after_hostAccess _
    · exact hrest.after_tick

/-- A cycle of reset keeps R40. -/
theorem Inv.after_resetCycle {s : State} (h : Inv s) : Inv (resetCycle s) := by
  unfold resetCycle
  split
  · exact h
  · exact Inv.reset.of_congr rfl rfl rfl

/-- Every step keeps R40. -/
theorem Inv.after_step {s t : State} (h : Inv s) (ht : step s = .next t) : Inv t := by
  obtain ⟨-, heq⟩ | ⟨-, -, heq⟩ | ⟨-, -, heq⟩ := step_cases s <;> rw [heq] at ht
  · exact Host.Outcome.next.inj ht ▸ h.after_resetCycle
  · exact h.after_completeCommand ht
  · exact Host.Outcome.next.inj ht ▸ h.after_hostCycle

/-- Settles O7: at reset RXLEN is 0 and no response is expected. -/
theorem resetMeetsTheInvariant : Obligations.ResetMeetsTheInvariant := Inv.reset

/-- Settles O8, by the three kinds of step: a reset cycle, a completion, and a host cycle. -/
theorem everyStepKeepsTheInvariant : Obligations.EveryStepKeepsTheInvariant := fun _ _ => Inv.after_step

end Sys2Proof.Machine

/-!
SUPPORT. What a command leaves unchanged (10_state.md R17 to R39), and that it reads no flag (R39).
-/

namespace Sys2Proof.Machine

/-! ## The registers -/

/-- The frame of R17, R18, R22 and R25 to R38 between the state a command starts in and one it leaves. -/
def KeepsRegisters (i : Instr) (s t : State) : Prop :=
  t.cmdr = s.cmdr ∧ t.ctrl = s.ctrl ∧ t.slave = s.slave ∧ t.arg0 = s.arg0 ∧ t.arg1 = s.arg1 ∧
  t.val = s.val ∧ t.rxbuf = s.rxbuf ∧ t.inputs = s.inputs ∧ t.resp = s.resp ∧ t.draws = s.draws ∧
  (i ∉ [.split, .combine, .crcTx, .crcRx, .parse] → t.res0 = s.res0) ∧
  (i ∉ [.split, .parse] → t.res1 = s.res1) ∧
  (i ∉ [.crcInit, .crcByte, .crcTx, .crcRx, .serAppend, .serRd, .serWr1, .serWrn, .parse, .parseRaw] → t.crc = s.crc) ∧
  (i ∉ [.serAppend, .serRd, .serWr1, .serWrn] → t.txlen = s.txlen ∧ t.txbuf = s.txbuf ∧ t.exp = s.exp) ∧
  (i ∉ [.rxClear, .serAppend, .serRd, .serWr1, .serWrn] → t.rxlen = s.rxlen) ∧
  (i ∉ [.parse, .parseRaw] → t.rxhdr = s.rxhdr ∧ t.rxcrc = s.rxcrc ∧ t.pllen = s.pllen) ∧
  (i ≠ .parse → t.rdat = s.rdat)

/-- The completion flags, the error record and ENG are outside the frame. -/
theorem KeepsRegisters.after_finish {i : Instr} {s t : State} (h : KeepsRegisters i s t) (r : Option CmdError) :
    KeepsRegisters i s (finish r t) := h

/-- A refused command writes no register. -/
theorem KeepsRegisters.after_refusal (i : Instr) (s : State) : KeepsRegisters i s (leftByRefusal i s) := by
  cases i <;> simp [KeepsRegisters, leftByRefusal]

/-- record(f) writes RXHDR, RXCRC, PLLEN and CRC only, whose rules (R26, R32 to R34) name PARSE and PARSE_RAW. -/
theorem KeepsRegisters.after_rejection {i : Instr} (hi : i = .parse ∨ i = .parseRaw) (s : State) :
    KeepsRegisters i s (leftByRejection s) := by
  obtain rfl | rfl := hi <;> simp [KeepsRegisters, leftByRejection]

/-- A successful command writes only registers whose rule names it. -/
theorem KeepsRegisters.after_success (i : Instr) (s : State) : KeepsRegisters i s (leftBySuccess i s) := by
  cases i with
  | parse =>
    by_cases hfc : s.exp.fc = .read
    · rw [leftBySuccess_parse_of_read hfc]
      simp [KeepsRegisters, leftByRejection]
    · rw [leftBySuccess_parse_of_ne_read hfc]
      simp [KeepsRegisters, leftByRejection]
  | parseRaw => exact .after_rejection (.inr rfl) s
  | _ => simp [KeepsRegisters, leftBySuccess]

/-- Settles O23, by the three ways a command ends. -/
theorem frameOfEveryCommand : Obligations.FrameOfEveryCommand := by
  intro i s t ht
  obtain ⟨e, -, rfl⟩ | ⟨e, -, hf, rfl⟩ | ⟨-, -, rfl⟩ := exec_cases ht
  · exact (KeepsRegisters.after_refusal i s).after_finish _
  · exact (KeepsRegisters.after_rejection (parses_of_frameChecks_fail hf) s).after_finish _
  · exact (KeepsRegisters.after_success i s).after_finish _

/-! ## The flags -/

/-- A refused command changes no flag but CRCOK, which PARSE and PARSE_RAW clear. -/
theorem status_leftByRefusal (i : Instr) (s : State) :
    (leftByRefusal i s).status.haz = s.status.haz ∧ (leftByRefusal i s).status.rxovf = s.status.rxovf ∧
    (i ∉ [.parse, .parseRaw] → (leftByRefusal i s).status.crcok = s.status.crcok) := by
  cases i <;> simp [leftByRefusal]

/-- record(f) changes no flag but CRCOK. -/
theorem status_leftByRejection (s : State) :
    (leftByRejection s).status = { s.status with crcok := frameOk (rxBytes s) } := rfl

/-- A successful command leaves HAZ; RXOVF is cleared by the flushing commands only, CRCOK written by PARSE and PARSE_RAW
only. -/
theorem status_leftBySuccess (i : Instr) (s : State) :
    (leftBySuccess i s).status.haz = s.status.haz ∧
    (leftBySuccess i s).status.rxovf =
      (if i ∈ [.rxClear, .serAppend, .serRd, .serWr1, .serWrn] then false else s.status.rxovf) ∧
    (i ∉ [.parse, .parseRaw] → (leftBySuccess i s).status.crcok = s.status.crcok) := by
  cases i with
  | parse =>
    by_cases hfc : s.exp.fc = .read
    · simp [leftBySuccess_parse_of_read hfc, status_leftByRejection]
    · simp [leftBySuccess_parse_of_ne_read hfc, status_leftByRejection]
  | parseRaw => simp [leftBySuccess, status_leftByRejection]
  | _ => simp [leftBySuccess]

/-- Settles O24, by the three ways a command ends. -/
theorem flagFrameOfEveryCommand : Obligations.FlagFrameOfEveryCommand := by
  intro i s t ht
  obtain ⟨e, -, rfl⟩ | ⟨e, -, hf, rfl⟩ | ⟨-, -, rfl⟩ := exec_cases ht
  · obtain ⟨hhaz, hrxovf, hcrcok⟩ := status_leftByRefusal i s
    exact ⟨hhaz, hcrcok, by simpa using hrxovf⟩
  · have hi := parses_of_frameChecks_fail hf
    exact ⟨rfl, fun hn => absurd hi (by simpa using hn), by simp [status_leftByRejection]⟩
  · obtain ⟨hhaz, hrxovf, hcrcok⟩ := status_leftBySuccess i s
    exact ⟨hhaz, hcrcok, by simpa using hrxovf⟩

/-! ## No flag is an input -/

/-- The checks before the frame read no flag. -/
theorem entryChecks_withStatus (i : Instr) (s : State) (st : Status) :
    entryChecks i { s with status := st } = entryChecks i s := by
  cases i <;> rfl

/-- The checks of the frame read no flag. -/
theorem frameChecks_withStatus (i : Instr) (s : State) (st : Status) :
    frameChecks i { s with status := st } = frameChecks i s := by
  cases i <;> rfl

/-- A refused command leaves the same registers whatever the flags were. -/
theorem leftByRefusal_withStatus (i : Instr) (s : State) (st : Status) :
    { leftByRefusal i { s with status := st } with status := (leftByRefusal i s).status } = leftByRefusal i s := by
  cases i <;> rfl

/-- R109's commit leaves the same registers whatever the flags were. -/
theorem commit_withStatus (frame : List Byte) (fc : ExpFc) (q : BitVec 5) (s : State) (st : Status) :
    { commit frame fc q { s with status := st } with status := (commit frame fc q s).status } = commit frame fc q s :=
  rfl

/-- A successful command leaves the same registers whatever the flags were. -/
theorem leftBySuccess_withStatus (i : Instr) (s : State) (st : Status) :
    { leftBySuccess i { s with status := st } with status := (leftBySuccess i s).status } = leftBySuccess i s := by
  cases i with
  | parse =>
    by_cases hfc : s.exp.fc = .read
    · rw [leftBySuccess_parse_of_read hfc, leftBySuccess_parse_of_read (s := { s with status := st }) hfc]
      rfl
    · rw [leftBySuccess_parse_of_ne_read hfc, leftBySuccess_parse_of_ne_read (s := { s with status := st }) hfc]
      rfl
  | serWrn =>
    have hvalues := valBytes_congr (s := s) (t := { s with status := st }) rfl
    simp only [leftBySuccess, hvalues]
    exact commit_withStatus ..
  | _ => rfl

/-- Two states that differ in STATUS only still do when a command ends in both with the same error record, which is then
the same, as is DONE. -/
theorem finish_withStatus {u u' : State} (h : { u' with status := u.status } = u) (r : Option CmdError) :
    { finish r u' with status := (finish r u).status } = finish r u ∧
    (finish r u').status.error = (finish r u).status.error ∧ (finish r u').status.done = (finish r u).status.done :=
  ⟨congrArg (finish r) h, rfl, rfl⟩

/-- Settles O25: both runs make the same checks, so they end in the same way. -/
theorem noCommandReadsAFlag : Obligations.NoCommandReadsAFlag := by
  intro i s t t' st ht ht'
  have hentry := entryChecks_withStatus i s st
  have hframe := frameChecks_withStatus i s st
  obtain ⟨e, he, rfl⟩ | ⟨e, he, hf, rfl⟩ | ⟨he, hf, rfl⟩ := exec_cases ht
  · rw [exec_of_entryChecks_fail (hentry ▸ he)] at ht'
    exact Host.Outcome.next.inj ht' ▸ finish_withStatus (leftByRefusal_withStatus i s st) _
  · rw [exec_of_frameChecks_fail (hentry ▸ he) (hframe ▸ hf)] at ht'
    exact Host.Outcome.next.inj ht' ▸ finish_withStatus rfl _
  · rw [exec_of_checks_pass (hentry ▸ he) (hframe ▸ hf)] at ht'
    exact Host.Outcome.next.inj ht' ▸ finish_withStatus (leftBySuccess_withStatus i s st) _

end Sys2Proof.Machine

/-!
SUPPORT. How STATUS reads (10_state.md R23), and what the window reads after reset (R41).
-/

namespace Sys2Proof.Machine

/-- ERRKIND and ERRCAUSE in their places of STATUS. -/
def errorField (r : Option CmdError) : Nat := 4096 * (errCause r).toNat + 256 * (errKind r).toNat

/-- STATUS in numbers (R23). -/
theorem toNat_statusWord (s : State) :
    (statusWord s).toNat = errorField s.status.error + 16 * s.status.rxovf.toNat + 8 * s.status.haz.toNat +
      4 * s.status.crcok.toNat + 2 * s.status.done.toNat + s.busy.toNat := by
  simp only [statusWord, app_toNat, toNat_bit, errorField, BitVec.toNat_ofNat]
  omega

/-- BUSY is 1 exactly when ENG is not IDLE (R21). -/
theorem toNat_busy (s : State) : s.busy.toNat = if s.eng = .idle then 0 else 1 := by
  cases h : s.eng <;> simp [State.busy, h]

/-- Settles O14: STATUS is the sum of its fields, and each error has its codes of R141 and R142. -/
theorem statusReadsFlagsAndErrorCodes : Obligations.StatusReadsFlagsAndErrorCodes := by
  intro s
  rw [hostRead_off (r := .status) rfl, readReg, toNat_statusWord, toNat_busy]
  congr 5
  cases s.status.error with
  | none => rfl
  | some e => cases e <;> rfl

/-- The place at an offset is a row of R52's table of single registers, or comes from the arrays' part of the map. -/
theorem regAt_cases (off : BitVec 13) :
    (off.toNat, regAt off) ∈ singleRegs ∨ regAt off = arrayReg off.toNat := by
  unfold regAt
  cases h : singleRegs.lookup off.toNat with
  | none => exact .inr rfl
  | some r =>
    obtain ⟨before, after, heq, -⟩ := List.lookup_eq_some_iff.1 h
    exact .inl (by simp [heq])

/-- The arrays' part of the map holds no CRC and no RXNEED. -/
theorem arrayReg_ne_crc_rxneed (a : Nat) : arrayReg a ≠ .crc ∧ arrayReg a ≠ .rxneed := by
  unfold arrayReg
  split_ifs <;> simp

/-- CRC stands at 0x020 only, RXNEED at 0x030 only. -/
theorem off_of_regAt_crc_rxneed {off : BitVec 13} :
    (regAt off = .crc → off.toNat = 0x020) ∧ (regAt off = .rxneed → off.toNat = 0x030) := by
  have harray := arrayReg_ne_crc_rxneed off.toNat
  obtain hsingle | heq := regAt_cases off
  · constructor <;> intro h <;> rw [h] at hsingle <;> simpa [singleRegs] using hsingle
  · rw [heq]
    exact ⟨fun h => absurd h harray.1, fun h => absurd h harray.2⟩

/-- After reset every place of the window but CRC and RXNEED reads 0 (R41). -/
theorem readReg_reset {r : Reg} (hcrc : r ≠ .crc) (hneed : r ≠ .rxneed) : readReg r State.reset = 0#32 := by
  cases r with
  | crc => exact absurd rfl hcrc
  | rxneed => exact absurd rfl hneed
  | val i | rdat i | txbuf i | rxbuf i => simp [readReg, State.reset]
  | _ => rfl

/-- Settles O10: the two registers that do not read 0 stand at one offset each. -/
theorem resetWindowReads : Obligations.ResetWindowReads := by
  refine ⟨rfl, rfl, rfl, fun off => ?_⟩
  obtain ⟨hcrc, hneed⟩ := off_of_regAt_crc_rxneed (off := off)
  split_ifs with h20 h30
  · rw [off_eq h20]
    rfl
  · rw [off_eq h30]
    rfl
  · rw [hostRead, readReg_reset (fun h => h20 (hcrc h)) (fun h => h30 (hneed h))]
    rfl

end Sys2Proof.Machine

/-!
SUPPORT. The register window under host accesses (20_memory.md R47 to R52): where each place of R52's map stands, how its
word reads in numbers, what a host access and a host write do, and what a read sees after a write.
-/

namespace Sys2Proof.Machine

/-! ## Where each place stands (R52) -/

/-- The offset R52 gives a place of the window; the reserved offsets are many, and 0 stands for them. -/
def Reg.offset : Reg → Nat
  | .ctrl => 0x000
  | .status => 0x004
  | .cmd => 0x008
  | .slave => 0x00C
  | .arg0 => 0x010
  | .arg1 => 0x014
  | .res0 => 0x018
  | .res1 => 0x01C
  | .crc => 0x020
  | .txlen => 0x024
  | .rxlen => 0x028
  | .rxdata => 0x02C
  | .rxneed => 0x030
  | .exp => 0x034
  | .rxhdr => 0x038
  | .rxcrc => 0x03C
  | .pllen => 0x040
  | .val i => 0x100 + 4 * i.val
  | .rdat i => 0x200 + 4 * i.val
  | .txbuf i => 0x400 + 4 * i.val
  | .rxbuf i => 0x1000 + 4 * i.val
  | .reserved => 0

/-- Each row of R52's table of single registers stands at its register's offset. -/
theorem offset_of_mem_singleRegs : ∀ p ∈ singleRegs, p.1 = p.2.offset := by decide

/-- An aligned offset of an array entry is that entry's own. -/
theorem offset_arrayReg {a : Nat} (hal : a % 4 = 0) (hr : arrayReg a ≠ .reserved) : a = (arrayReg a).offset := by
  unfold arrayReg at hr ⊢
  split_ifs at hr ⊢ <;> simp only [Reg.offset, ne_eq, not_true_eq_false] at hr ⊢ <;> omega

/-- The map takes the offset of a place to that place. -/
theorem regAt_offset {r : Reg} (hr : r ≠ .reserved) : regAt (BitVec.ofNat 13 r.offset) = r := by
  cases r with
  | val i => exact regAt_val i
  | rdat i => exact regAt_rdat i
  | txbuf i => exact regAt_txbuf i
  | rxbuf i => exact regAt_rxbuf i
  | reserved => exact absurd rfl hr
  | _ => rfl

/-- A place stands at its own offset. -/
theorem regAt_of_offset {off : BitVec 13} {r : Reg} (hr : r ≠ .reserved) (h : off.toNat = r.offset) : regAt off = r := by
  rw [off_eq h, regAt_offset hr]

/-- R52: among the aligned offsets, a place stands at no other than its own. -/
theorem offset_of_regAt {off : BitVec 13} {r : Reg} (hal : off.toNat % 4 = 0) (hr : r ≠ .reserved) (h : regAt off = r) :
    off.toNat = r.offset := by
  subst h
  obtain hsingle | harray := regAt_cases off
  · exact offset_of_mem_singleRegs _ hsingle
  · rw [harray] at hr ⊢
    exact offset_arrayReg hal hr

/-! ## How a register reads in numbers -/

/-- CTRL in numbers (R22). -/
theorem toNat_ctrlWord (s : State) : (ctrlWord s).toNat = 2 * s.ctrl.irqen.toNat + s.ctrl.en.toNat := by
  simp only [ctrlWord, app_toNat, toNat_bit, BitVec.toNat_ofNat]
  omega

/-- EXP in numbers (R31). -/
theorem toNat_expWord (s : State) :
    (expWord s).toNat = 65536 * s.exp.qty.toNat + 256 * s.exp.fc.code.toNat + s.exp.addr.toNat := by
  simp only [expWord, app_toNat, BitVec.toNat_ofNat]
  omega

/-- RXHDR in numbers (R32). -/
theorem toNat_rxhdrWord (s : State) : (rxhdrWord s).toNat = 256 * s.rxhdr.fc.toNat + s.rxhdr.addr.toNat := by
  simp only [rxhdrWord, app_toNat, BitVec.toNat_ofNat]
  omega

/-- RXCRC in numbers (R33). -/
theorem toNat_rxcrcWord (s : State) :
    (rxcrcWord s).toNat = 65536 * s.rxcrc.received.toNat + s.rxcrc.computed.toNat := by
  simp only [rxcrcWord, app_toNat]
  omega

/-- The reserved ranges of R52 hold no register and no array entry. -/
theorem regAt_reserved {off : BitVec 13} (hal : off.toNat % 4 = 0)
    (hoff : (0x044 ≤ off.toNat ∧ off.toNat ≤ 0x0FC) ∨ (0x178 ≤ off.toNat ∧ off.toNat ≤ 0x1FC) ∨
      (0x278 ≤ off.toNat ∧ off.toNat ≤ 0x3FC) ∨ (0x810 ≤ off.toNat ∧ off.toNat ≤ 0xFFC) ∨ 0x1410 ≤ off.toNat) :
    regAt off = .reserved := by
  by_contra hr
  have heq := offset_of_regAt hal hr rfl
  cases h : regAt off with
  | reserved => exact hr h
  | _ =>
    simp only [h, Reg.offset] at heq
    omega

/-- Settles O13: each offset's place is that of R52's map, and each place reads its fields. -/
theorem windowReadsItsRegisters : Obligations.WindowReadsItsRegisters := by
  intro s
  refine ⟨toNat_ctrlWord s, rfl, BitVec.toNat_setWidth_of_le (b := s.slave) (by decide), rfl, rfl, rfl, rfl,
    BitVec.toNat_setWidth_of_le (b := s.crc) (by decide), BitVec.toNat_setWidth_of_le (b := s.txlen) (by decide),
    BitVec.toNat_setWidth_of_le (b := s.rxlen) (by decide), rfl, toNat_expWord s, toNat_rxhdrWord s, toNat_rxcrcWord s,
    BitVec.toNat_setWidth_of_le (b := s.pllen) (by decide), fun i => ?_, fun i => ?_, fun i => ?_, fun i => ?_,
    fun off hal hoff => ?_⟩
  · rw [hostRead_off (regAt_val i)]
    exact BitVec.toNat_setWidth_of_le (by decide)
  · rw [hostRead_off (regAt_rdat i)]
    exact BitVec.toNat_setWidth_of_le (by decide)
  · rw [hostRead_off (regAt_txbuf i)]
    exact BitVec.toNat_setWidth_of_le (by decide)
  · rw [hostRead_off (regAt_rxbuf i)]
    exact BitVec.toNat_setWidth_of_le (by decide)
  · rw [hostRead_off (regAt_reserved hal hoff)]
    rfl

/-! ## A host access (R47) -/

/-- An illegal access only answers herr = 1. -/
theorem hostAccess_of_illegal {a : Access} (h : a.hsize.toNat ≠ 4 ∨ a.haddr.toNat % 4 ≠ 0) (s : State) :
    hostAccess a s = { s with resp := some (if a.hwrite then .write true else .read 0#32 true) } :=
  if_neg fun hl => by
    rw [legal_iff] at hl
    omega

/-- A legal read only answers the window's value. -/
theorem hostAccess_read {a : Access} (hsize : a.hsize.toNat = 4) (hal : a.haddr.toNat % 4 = 0) (hw : a.hwrite = false)
    (s : State) : hostAccess a s = { s with resp := some (.read (hostRead a.haddr s) false) } := by
  rw [hostAccess, if_pos ((legal_iff a).2 ⟨hsize, hal⟩), if_neg (by simp [hw])]

/-- A legal write is HostWrite and answers herr = 0. -/
theorem hostAccess_write {a : Access} (hsize : a.hsize.toNat = 4) (hal : a.haddr.toNat % 4 = 0) (hw : a.hwrite = true)
    (s : State) : hostAccess a s = { hostWrite a.haddr a.hwdata s with resp := some (.write false) } := by
  rw [hostAccess, if_pos ((legal_iff a).2 ⟨hsize, hal⟩), if_pos hw]

/-- Settles O12, by the three kinds of access. -/
theorem onlyAlignedWordAccessesAreLegal : Obligations.OnlyAlignedWordAccessesAreLegal := by
  intro s s' a h
  rw [h.step_eq]
  refine ⟨fun hill => ?_, fun hsize hal hw => ?_, fun hsize hal hw => ?_⟩
  · rw [hostAccess_of_illegal hill]
  · rw [hostAccess_read hsize hal hw, h.read]
  · rw [hostAccess_write hsize hal hw]

/-! ## A host write, decided in R50's order -/

/-- BUSY reads 1 when ENG is not IDLE (R21). -/
theorem busy_of_not_idle {s : State} (h : s.eng ≠ .idle) : s.busy = true := by
  unfold State.busy
  split
  · next hidle => exact absurd hidle h
  · rfl

/-- STATUS is always honoured. -/
theorem hostWrite_status {off : BitVec 13} (hoff : off.toNat = 0x004) (v : Word) (s : State) :
    hostWrite off v s = acknowledge v s := if_pos (off_eq hoff)

/-- Any other write while BUSY = 1 only sets HAZ. -/
theorem hostWrite_of_busy {off : BitVec 13} {s : State} (hoff : off.toNat ≠ 0x004) (hs : s.eng ≠ .idle) (v : Word) :
    hostWrite off v s = { s with status := { s.status with haz := true } } :=
  (if_neg (off_ne hoff)).trans (if_pos (busy_of_not_idle hs))

/-- While BUSY = 0 a write is the write of its place, of STATUS too. -/
theorem hostWrite_of_idle {s : State} (hs : s.eng = .idle) (off : BitVec 13) (v : Word) :
    hostWrite off v s = writeReg (regAt off) v s := by
  obtain ⟨rfl, heq⟩ | ⟨-, hbusy, -⟩ | ⟨-, -, heq⟩ := hostWrite_cases off v s
  · exact heq
  · simp [State.busy, hs] at hbusy
  · exact heq

/-- While BUSY = 0 a write at the offset of a place writes that place. -/
theorem hostWrite_at {s : State} {off : BitVec 13} {r : Reg} (hs : s.eng = .idle) (hoff : off.toNat = r.offset)
    (hr : r ≠ .reserved) (v : Word) : hostWrite off v s = writeReg r v s := by
  rw [hostWrite_of_idle hs, regAt_of_offset hr hoff]

/-- A write of 1 clears a W1C bit and a write of 0 leaves it. -/
theorem w1c_eq (flag b : Bool) : (flag && !b) = if b then false else flag := by cases b <;> simp

/-- The acknowledgement bit by bit (R23). -/
theorem acknowledge_eq (v : Word) (s : State) :
    acknowledge v s = { s with status := { s.status with
      done := if v.getLsbD 1 then false else s.status.done
      haz := if v.getLsbD 3 then false else s.status.haz
      rxovf := if v.getLsbD 4 then false else s.status.rxovf } } := by
  simp only [acknowledge, w1c_eq]

/-- A field of `n` bits takes the low `n` bits of the word. -/
theorem extractLsb'_zero_eq_ofNat (n : Nat) (v : Word) : v.extractLsb' 0 n = BitVec.ofNat n v.toNat := by
  apply BitVec.eq_of_toNat_eq
  simp

theorem low8_eq_ofNat (v : Word) : low8 v = BitVec.ofNat 8 v.toNat := extractLsb'_zero_eq_ofNat 8 v

theorem low16_eq_ofNat (v : Word) : low16 v = BitVec.ofNat 16 v.toNat := extractLsb'_zero_eq_ofNat 16 v

/-- The places of R52 that no host write changes: the read-only registers and entries, and the reserved offsets. -/
def Reg.readOnly : Reg → Bool
  | .res0 | .res1 | .rxlen | .rxneed | .exp | .rxhdr | .rxcrc | .pllen | .rdat _ | .rxbuf _ | .reserved => true
  | .ctrl | .status | .cmd | .slave | .arg0 | .arg1 | .crc | .txlen | .rxdata | .val _ | .txbuf _ => false

/-- A write to a read-only or reserved place changes nothing. -/
theorem writeReg_of_readOnly {r : Reg} (h : r.readOnly = true) (v : Word) (s : State) : writeReg r v s = s := by
  cases r with
  | ctrl | status | cmd | slave | arg0 | arg1 | crc | txlen | rxdata | val | txbuf => exact Bool.noConfusion h
  | _ => rfl

/-- R52's read-only and reserved offsets hold no place a host write changes. -/
theorem readOnly_regAt {off : BitVec 13} (hal : off.toNat % 4 = 0)
    (hoff : off.toNat = 0x018 ∨ off.toNat = 0x01C ∨ off.toNat = 0x028 ∨ (0x030 ≤ off.toNat ∧ off.toNat ≤ 0x0FC) ∨
      (0x178 ≤ off.toNat ∧ off.toNat ≤ 0x3FC) ∨ 0x810 ≤ off.toNat) : (regAt off).readOnly = true := by
  cases h : regAt off with
  | ctrl | status | cmd | slave | arg0 | arg1 | crc | txlen | rxdata | val | txbuf =>
    have heq := offset_of_regAt hal (by simp) h
    simp only [Reg.offset] at heq
    omega
  | _ => rfl

/-- Settles O15: STATUS first, then BUSY, then the place at the offset. -/
theorem hostWriteInItsOrder : Obligations.HostWriteInItsOrder := by
  refine ⟨fun s off v hal => ⟨fun hoff => ?_, fun hoff hbusy => hostWrite_of_busy hoff hbusy v, fun hs => ?_⟩,
    fun s s' a h hsize hal hw => ?_⟩
  · rw [hostWrite_status hoff, acknowledge_eq]
  · have hat {r : Reg} (hr : r ≠ .reserved) (hoff : off.toNat = r.offset) := hostWrite_at hs hoff hr v
    refine ⟨fun h => ⟨_, _, hat (r := .cmd) nofun h⟩, fun h => ?_, hat (r := .ctrl) nofun, fun h => ?_,
      hat (r := .arg0) nofun, hat (r := .arg1) nofun, fun h => ?_, fun h => ?_, fun i h => ?_, fun i h => ?_, fun h => ?_⟩
    · rw [hat (r := .rxdata) nofun h, writeReg, low8_eq_ofNat]
    · rw [hat (r := .slave) nofun h, writeReg, low8_eq_ofNat]
    · rw [hat (r := .crc) nofun h, writeReg, low16_eq_ofNat]
    · rw [hat (r := .txlen) nofun h, writeReg, extractLsb'_zero_eq_ofNat]
    · rw [hat (r := .val i) nofun h, writeReg, low16_eq_ofNat]
    · rw [hat (r := .txbuf i) nofun h, writeReg, low8_eq_ofNat]
    · rw [hostWrite_of_idle hs, writeReg_of_readOnly (readOnly_regAt hal h)]
  · exact ⟨_, h.step_eq, by rw [hostAccess_write hsize hal hw]⟩

/-! ## What a read sees after a write -/

/-- The bits of the fields that a write of a read-write place stores (R52); `none` for every other place. -/
def Reg.rwMask : Reg → Option Word
  | .ctrl => some 0x3#32
  | .slave => some 0xFF#32
  | .arg0 => some 0xFFFFFFFF#32
  | .arg1 => some 0xFFFFFFFF#32
  | .crc => some 0xFFFF#32
  | .txlen => some 0x1FF#32
  | .val _ => some 0xFFFF#32
  | .txbuf _ => some 0xFF#32
  | _ => none

/-- A field of `n` bits reads as the written word cut to its low `n` bits. -/
theorem setWidth_extractLsb'_zero (n : Nat) (v : Word) (hn : n ≤ 32) :
    (v.extractLsb' 0 n).setWidth 32 = v &&& BitVec.ofNat 32 (2 ^ n - 1) := by
  apply BitVec.eq_of_toNat_eq
  have hpow : 2 ^ n ≤ 2 ^ 32 := Nat.pow_le_pow_right (by omega) hn
  have hmask : (2 ^ n - 1) % 2 ^ 32 = 2 ^ n - 1 := Nat.mod_eq_of_lt (by have := Nat.two_pow_pos n; omega)
  rw [BitVec.toNat_setWidth_of_le hn, BitVec.toNat_and, BitVec.toNat_ofNat, hmask, Nat.and_two_pow_sub_one_eq_mod]
  simp

/-- CTRL reads the two low bits of the word last written. -/
theorem ctrlWord_write (v : Word) (s : State) :
    ctrlWord { s with ctrl := { en := v.getLsbD 0, irqen := v.getLsbD 1 } } = v &&& 0x3#32 := by
  apply BitVec.eq_of_toNat_eq
  have hmask : (v &&& 0x3#32).toNat = v.toNat % 4 := Nat.and_two_pow_sub_one_eq_mod v.toNat 2
  rw [toNat_ctrlWord, hmask]
  simp only [BitVec.getLsbD, Nat.toNat_testBit]
  omega

/-- A read-write place reads the written word cut to its fields. -/
theorem readReg_writeReg_same {r : Reg} {mask : Word} (h : r.rwMask = some mask) (v : Word) (s : State) :
    readReg r (writeReg r v s) = v &&& mask := by
  cases r with
  | ctrl =>
    obtain rfl := Option.some.inj h
    exact ctrlWord_write v s
  | arg0 | arg1 =>
    obtain rfl := Option.some.inj h
    exact (BitVec.and_allOnes (x := v)).symm
  | slave =>
    obtain rfl := Option.some.inj h
    exact setWidth_extractLsb'_zero 8 v (by decide)
  | crc =>
    obtain rfl := Option.some.inj h
    exact setWidth_extractLsb'_zero 16 v (by decide)
  | txlen =>
    obtain rfl := Option.some.inj h
    exact setWidth_extractLsb'_zero 9 v (by decide)
  | val i =>
    obtain rfl := Option.some.inj h
    simp only [readReg, writeReg, Fin.getElem_fin, Vector.getElem_set_self]
    exact setWidth_extractLsb'_zero 16 v (by decide)
  | txbuf i =>
    obtain rfl := Option.some.inj h
    simp only [readReg, writeReg, Fin.getElem_fin, Vector.getElem_set_self]
    exact setWidth_extractLsb'_zero 8 v (by decide)
  | _ => exact absurd h (by simp [Reg.rwMask])

/-- A write of a read-write place is seen at no other place. -/
theorem readReg_writeReg_of_ne {r r' : Reg} {mask : Word} (h : r.rwMask = some mask) (hne : r' ≠ r) (v : Word)
    (s : State) : readReg r' (writeReg r v s) = readReg r' s := by
  cases r with
  | ctrl => cases r' with
    | ctrl => exact absurd rfl hne
    | _ => rfl
  | slave => cases r' with
    | slave => exact absurd rfl hne
    | _ => rfl
  | arg0 => cases r' with
    | arg0 => exact absurd rfl hne
    | _ => rfl
  | arg1 => cases r' with
    | arg1 => exact absurd rfl hne
    | _ => rfl
  | crc => cases r' with
    | crc => exact absurd rfl hne
    | _ => rfl
  | txlen => cases r' with
    | txlen => exact absurd rfl hne
    | _ => rfl
  | val i => cases r' with
    | val j =>
      have hij : i.val ≠ j.val := fun heq => hne (congrArg Reg.val (Fin.ext heq.symm))
      simp only [readReg, writeReg, Fin.getElem_fin, Vector.getElem_set_ne _ _ hij]
    | _ => rfl
  | txbuf i => cases r' with
    | txbuf j =>
      have hij : i.val ≠ j.val := fun heq => hne (congrArg Reg.txbuf (Fin.ext heq.symm))
      simp only [readReg, writeReg, Fin.getElem_fin, Vector.getElem_set_ne _ _ hij]
    | _ => rfl
  | _ => exact absurd h (by simp [Reg.rwMask])

/-- Each read-write offset of R52, with its mask, is that of a read-write place. -/
theorem exists_rwMask {off : BitVec 13} {mask : Word}
    (h : (off.toNat = 0x000 ∧ mask = 0x3#32) ∨ (off.toNat = 0x00C ∧ mask = 0xFF#32) ∨
      (off.toNat = 0x010 ∧ mask = 0xFFFFFFFF#32) ∨ (off.toNat = 0x014 ∧ mask = 0xFFFFFFFF#32) ∨
      (off.toNat = 0x020 ∧ mask = 0xFFFF#32) ∨ (off.toNat = 0x024 ∧ mask = 0x1FF#32) ∨
      (0x100 ≤ off.toNat ∧ off.toNat ≤ 0x174 ∧ off.toNat % 4 = 0 ∧ mask = 0xFFFF#32) ∨
      (0x400 ≤ off.toNat ∧ off.toNat ≤ 0x80C ∧ off.toNat % 4 = 0 ∧ mask = 0xFF#32)) :
    ∃ r : Reg, off.toNat = r.offset ∧ r.rwMask = some mask := by
  obtain ⟨h, rfl⟩ | ⟨h, rfl⟩ | ⟨h, rfl⟩ | ⟨h, rfl⟩ | ⟨h, rfl⟩ | ⟨h, rfl⟩ |
    ⟨hlo, hhi, hal, rfl⟩ | ⟨hlo, hhi, hal, rfl⟩ := h
  · exact ⟨.ctrl, h, rfl⟩
  · exact ⟨.slave, h, rfl⟩
  · exact ⟨.arg0, h, rfl⟩
  · exact ⟨.arg1, h, rfl⟩
  · exact ⟨.crc, h, rfl⟩
  · exact ⟨.txlen, h, rfl⟩
  · exact ⟨.val ⟨(off.toNat - 0x100) / 4, by omega⟩, by simp only [Reg.offset]; omega, rfl⟩
  · exact ⟨.txbuf ⟨(off.toNat - 0x400) / 4, by omega⟩, by simp only [Reg.offset]; omega, rfl⟩

/-- Settles O16: the place at the offset is the written one, and another aligned offset has another place. -/
theorem writeThenReadBack : Obligations.WriteThenReadBack := by
  intro s off v mask hs hrw
  obtain ⟨r, hoff, hmask⟩ := exists_rwMask hrw
  have hr : r ≠ .reserved := by
    rintro rfl
    exact absurd hmask (by simp [Reg.rwMask])
  rw [hostWrite_at hs hoff hr, hostRead_off (regAt_of_offset hr hoff)]
  refine ⟨readReg_writeReg_same hmask v s, fun off' hal hne => readReg_writeReg_of_ne hmask (fun h => hne ?_) v s⟩
  exact BitVec.eq_of_toNat_eq ((offset_of_regAt hal hr h).trans hoff.symm)

end Sys2Proof.Machine

/-!
SUPPORT. A command's result and the cycles of its wait (20_memory.md R56 and R59, 40_command_cycle.md R83): host cycles
while BUSY = 1 keep the command's core, and a completion depends on the core only.
-/

namespace Sys2Proof.Machine

/-! ## Host cycles of the wait keep the core -/

/-- What every host access leaves while BUSY = 1: the core of the command, the engine and the coming cycles. -/
structure KeepsCommand (s t : State) : Prop where
  core : commandCore t = commandCore s
  eng : t.eng = s.eng
  inputs : t.inputs = s.inputs

/-- A write while BUSY = 1 changes only W1C bits (R50). -/
theorem KeepsCommand.hostWrite {s : State} (hs : s.eng ≠ .idle) (off : BitVec 13) (v : Word) :
    KeepsCommand s (hostWrite off v s) := by
  by_cases hoff : off.toNat = 0x004
  · rw [hostWrite_status hoff]
    exact ⟨rfl, rfl, rfl⟩
  · rw [hostWrite_of_busy hoff hs]
    exact ⟨rfl, rfl, rfl⟩

/-- An access while BUSY = 1 changes only W1C bits and the answer (R48, R50). -/
theorem KeepsCommand.hostAccess {s : State} (hs : s.eng ≠ .idle) (a : Access) : KeepsCommand s (hostAccess a s) := by
  obtain ⟨-, -, heq⟩ | ⟨r, heq⟩ := hostAccess_cases a s <;> rw [heq]
  · have h := KeepsCommand.hostWrite hs a.haddr a.hwdata
    exact ⟨h.core, h.eng, h.inputs⟩
  · exact ⟨rfl, rfl, rfl⟩

/-- One cycle of the wait passes. -/
theorem tick_of_waiting {s : State} {n : Nat} (hs : s.eng = .exec (n + 1)) : tick s = { s with eng := .exec n } := by
  simp only [tick, hs]

/-- A host cycle during the wait keeps the core, takes one cycle off the wait and one off the outside world's list. -/
theorem hostCycle_of_waiting {s : State} {n : Nat} (hs : s.eng = .exec (n + 1)) :
    commandCore (hostCycle s) = commandCore s ∧ (hostCycle s).eng = .exec n ∧ (hostCycle s).inputs = s.inputs.tail := by
  unfold hostCycle
  split
  · next hi =>
    rw [tick_of_waiting hs]
    exact ⟨rfl, rfl, by simp [hi]⟩
  · next inp rest hi =>
    rw [tick_of_waiting (s := { s with inputs := rest }) hs, hi]
    split
    · next a _ =>
      have h := KeepsCommand.hostAccess (s := { s with inputs := rest, eng := .exec n }) nofun a
      exact ⟨h.core, h.eng, h.inputs⟩
    · exact ⟨rfl, rfl, rfl⟩

/-! ## The run to the completion -/

/-- A run of `k + 1` steps that goes through begins with a step that does. -/
theorem step_of_runsTo_succ {k : Nat} {s u : State} (h : RunsTo (k + 1) s u) : ∃ t, step s = .next t ∧ RunsTo k t u := by
  cases hstep : step s with
  | next t => exact ⟨t, rfl, (runsTo_succ hstep k u).1 h⟩
  | fault r => exact nomatch r
  | refused r =>
    have hstop : Host.Core.run Sys2Proof.core (k + 1) s = .refused r := by
      refine (Host.Core.run.eq_2 Sys2Proof.core s k).trans ?_
      rw [show Sys2Proof.core.step s = .refused r from hstep]
    exact nomatch hstop.symm.trans h

/-- No reset in the coming cycles means none in those after the next. -/
theorem NoResetIn.tail {s t : State} {k : Nat} (h : NoResetIn (k + 1) s) (ht : t.inputs = s.inputs.tail) :
    NoResetIn k t := by
  intro inp hmem
  rw [ht] at hmem
  cases hi : s.inputs with
  | nil => simp [hi] at hmem
  | cons first rest =>
    rw [hi] at hmem
    exact h inp (by rw [hi]; exact List.mem_cons_of_mem _ hmem)

/-- The run of a waiting command to its completion ends with the completion of a state that has the same core. -/
theorem completeCommand_of_runsTo {s t : State} {n : Nat} (hs : s.eng = .exec n) (hreset : NoResetIn (n + 1) s)
    (hrun : RunsTo (n + 1) s t) : ∃ w, commandCore w = commandCore s ∧ completeCommand w = .next t := by
  have hnow := resetPending_noReset hreset
  obtain ⟨u, hstep, hrest⟩ := step_of_runsTo_succ hrun
  induction n generalizing s u with
  | zero =>
    obtain rfl := (runsTo_zero u t).1 hrest
    exact ⟨s, rfl, by simpa [step, hnow, hs] using hstep⟩
  | succ n ih =>
    obtain rfl : hostCycle s = u := by simpa [step, hnow, hs] using hstep
    obtain ⟨hcore, heng, hinputs⟩ := hostCycle_of_waiting hs
    have hlater := hreset.tail hinputs
    obtain ⟨v, hnext, hend⟩ := step_of_runsTo_succ hrest
    obtain ⟨w, hw, hcomplete⟩ := ih heng hlater hrest (resetPending_noReset hlater) v hnext hend
    exact ⟨w, hw.trans hcore, hcomplete⟩

/-! ## A completion depends on the core only -/

/-- A function that does not see what `commandCore` drops agrees on states with equal cores. -/
theorem eq_of_commandCore_eq {α : Type} (f : State → α) (hf : ∀ s, f (commandCore s) = f s) {s t : State}
    (h : commandCore s = commandCore t) : f s = f t := by
  rw [← hf s, h, hf]

/-- The end of the completion step keeps cores equal. -/
theorem commandCore_finish {s t : State} (h : commandCore s = commandCore t) (r : Option CmdError) :
    commandCore (finish r s) = commandCore (finish r t) :=
  eq_of_commandCore_eq (fun s => commandCore (finish r s)) (fun _ => rfl) h

/-- The checks before the frame read the core only. -/
theorem entryChecks_commandCore (i : Instr) (s : State) : entryChecks i (commandCore s) = entryChecks i s := by
  cases i <;> rfl

/-- The checks of the frame read the core only. -/
theorem frameChecks_commandCore (i : Instr) (s : State) : frameChecks i (commandCore s) = frameChecks i s := by
  cases i <;> rfl

/-- What a refusal leaves of the core comes from the core. -/
theorem leftByRefusal_commandCore (i : Instr) (s : State) :
    commandCore (leftByRefusal i (commandCore s)) = commandCore (leftByRefusal i s) := by
  cases i <;> rfl

/-- What record(f) leaves of the core comes from the core. -/
theorem leftByRejection_commandCore (s : State) :
    commandCore (leftByRejection (commandCore s)) = commandCore (leftByRejection s) := rfl

/-- What a success leaves of the core comes from the core. -/
theorem leftBySuccess_commandCore (i : Instr) (s : State) :
    commandCore (leftBySuccess i (commandCore s)) = commandCore (leftBySuccess i s) := by
  cases i with
  | parse =>
    by_cases hfc : s.exp.fc = .read
    · rw [leftBySuccess_parse_of_read hfc, leftBySuccess_parse_of_read (s := commandCore s) hfc]
      rfl
    · rw [leftBySuccess_parse_of_ne_read hfc, leftBySuccess_parse_of_ne_read (s := commandCore s) hfc]
      rfl
  | _ => rfl

/-- A command started from equal cores ends with equal cores. -/
theorem exec_of_commandCore_eq {i : Instr} {s w t : State} (hcore : commandCore w = commandCore s)
    (h : exec i w = .next t) : ∃ u, exec i s = .next u ∧ commandCore t = commandCore u := by
  have hentry := eq_of_commandCore_eq (entryChecks i) (entryChecks_commandCore i) hcore
  have hframe := eq_of_commandCore_eq (frameChecks i) (frameChecks_commandCore i) hcore
  have hrefusal := eq_of_commandCore_eq (fun s => commandCore (leftByRefusal i s)) (leftByRefusal_commandCore i) hcore
  have hrejection := eq_of_commandCore_eq (fun s => commandCore (leftByRejection s)) leftByRejection_commandCore hcore
  have hsuccess := eq_of_commandCore_eq (fun s => commandCore (leftBySuccess i s)) (leftBySuccess_commandCore i) hcore
  obtain ⟨e, he, rfl⟩ | ⟨e, he, hf, rfl⟩ | ⟨he, hf, rfl⟩ := exec_cases h
  · exact ⟨_, exec_of_entryChecks_fail (hentry ▸ he), commandCore_finish hrefusal _⟩
  · exact ⟨_, exec_of_frameChecks_fail (hentry ▸ he) (hframe ▸ hf), commandCore_finish hrejection _⟩
  · exact ⟨_, exec_of_checks_pass (hentry ▸ he) (hframe ▸ hf), commandCore_finish hsuccess _⟩

/-- Completions, of illegal words too, that start from equal cores end with equal cores. -/
theorem completeCommand_of_commandCore_eq {s w t : State} (hcore : commandCore w = commandCore s)
    (h : completeCommand w = .next t) : ∃ u, completeCommand s = .next u ∧ commandCore t = commandCore u := by
  have hcmdr : w.cmdr = s.cmdr := eq_of_commandCore_eq State.cmdr (fun _ => rfl) hcore
  unfold completeCommand at h ⊢
  rw [hcmdr] at h
  cases hd : decode s.cmdr with
  | command i =>
    simp only [hd] at h ⊢
    exact exec_of_commandCore_eq hcore h
  | reserved | opcode =>
    simp only [hd, raiseError, Host.Outcome.next.injEq] at h ⊢
    exact ⟨_, rfl, h ▸ commandCore_finish hcore _⟩

/-- Settles O27: the wait keeps the core, and the completion depends on nothing else. -/
theorem commandResultIndependentOfLatency : Obligations.CommandResultIndependentOfLatency := by
  intro s t n hs hreset hrun
  obtain ⟨w, hcore, hcomplete⟩ := completeCommand_of_runsTo hs hreset hrun
  exact completeCommand_of_commandCore_eq hcore hcomplete

end Sys2Proof.Machine

/-!
SUPPORT. The decoder and the encoder (30_encoding.md R62, R64, R65 and R78): the two fields of a word, the opcode map read
in both directions, and what the completion step does with each kind of word.
-/

namespace Sys2Proof

/-! ## The fields of a word -/

/-- RSV above OP is the whole word (R62). -/
theorem rsvOf_append_opOf (w : Word) : rsvOf w ++ opOf w = w :=
  (BitVec.extractLsb'_append_extractLsb'_eq_extractLsb' rfl).trans BitVec.extractLsb'_eq_self

@[simp] theorem rsvOf_encode (i : Instr) : rsvOf (encode i) = 0#24 := BitVec.extractLsb'_append_eq_left

@[simp] theorem opOf_encode (i : Instr) : opOf (encode i) = encodeOp i := BitVec.extractLsb'_append_eq_right

/-- A word is a command's word when RSV = 0 and OP is the command's. -/
theorem eq_encode_iff {w : Word} {i : Instr} : w = encode i ↔ rsvOf w = 0#24 ∧ opOf w = encodeOp i := by
  constructor
  · rintro rfl
    simp
  · rintro ⟨hrsv, hop⟩
    rw [← rsvOf_append_opOf w, hrsv, hop, encode]

/-- RSV as a number. -/
theorem toNat_rsvOf (w : Word) : (rsvOf w).toNat = w.toNat / 256 := by
  have hw := w.isLt
  rw [rsvOf, BitVec.extractLsb'_toNat, Nat.shiftRight_eq_div_pow]
  omega

/-- RSV = 0 says that the word has no bit above bit 7. -/
theorem rsvOf_eq_zero_iff {w : Word} : rsvOf w = 0#24 ↔ w.toNat < 256 := by
  rw [← BitVec.toNat_inj, toNat_rsvOf, BitVec.toNat_zero]
  omega

/-- OP is the word itself when it has no bit above bit 7. -/
theorem toNat_opOf {w : Word} (h : w.toNat < 256) : (opOf w).toNat = w.toNat := by
  rw [opOf, BitVec.extractLsb'_toNat, Nat.shiftRight_zero, Nat.mod_eq_of_lt h]

/-! ## The opcode map in both directions -/

/-- Every row of the opcode map holds the OP that the encoder gives its command (R64). -/
theorem fst_of_mem_opcodeMap : ∀ p ∈ opcodeMap, p.1 = encodeOp p.2 := by decide

@[simp] theorem commandOf_encodeOp (i : Instr) : commandOf (encodeOp i) = some i := by cases i <;> rfl

/-- The opcode map and the encoder's OP are inverse to each other. -/
theorem commandOf_eq_some_iff {op : Byte} {i : Instr} : commandOf op = some i ↔ op = encodeOp i := by
  constructor
  · intro h
    obtain ⟨before, later, hsplit, -⟩ := List.lookup_eq_some_iff.1 h
    exact fst_of_mem_opcodeMap (op, i) (by simp [hsplit])
  · rintro rfl
    exact commandOf_encodeOp i

/-- An OP selects no command exactly when it is none of the 14 (R65). -/
theorem commandOf_eq_none_iff {op : Byte} : commandOf op = none ↔ op ∉ opCodes := by
  have hcodes : opCodes = opcodeMap.map Prod.fst := rfl
  simp only [commandOf, List.lookup_eq_none_iff, bne_iff_ne, hcodes, List.mem_map, not_exists, not_and, ne_eq,
    @eq_comm Byte op]

/-! ## The decoder, a rule per answer -/

/-- RESERVED is checked first (R65). -/
theorem decode_of_rsv_ne_zero {w : Word} (h : rsvOf w ≠ 0#24) : decode w = .reserved := if_pos h

/-- A word is read as a command when RSV = 0 and its OP selects the command (R65). -/
theorem decode_eq_command_iff {w : Word} {i : Instr} :
    decode w = .command i ↔ rsvOf w = 0#24 ∧ commandOf (opOf w) = some i := by
  by_cases hrsv : rsvOf w = 0#24
  · cases hop : commandOf (opOf w) <;> simp [decode, hrsv, hop]
  · simp [decode_of_rsv_ne_zero hrsv, hrsv]

theorem decode_of_unlisted {w : Word} (hrsv : rsvOf w = 0#24) (hop : commandOf (opOf w) = none) : decode w = .opcode := by
  simp [decode, hrsv, hop]

/-- Settles O1: RSV and OP make up the word, and the opcode map is the inverse of the encoder's OP. -/
theorem decodeAndEncodeAgree : Obligations.DecodeAndEncodeAgree := by
  intro w i
  rw [decode_eq_command_iff, commandOf_eq_some_iff, eq_encode_iff]

/-- The decoder reads a command back from its own word. -/
theorem decode_encode (i : Instr) : decode (encode i) = .command i := (decodeAndEncodeAgree (encode i) i).2 rfl

/-- Settles O2: each of the 14 words is the encoder's word of its command. -/
theorem opcodeMapDecodes : Obligations.OpcodeMapDecodes :=
  ⟨decode_encode .nop, decode_encode .crcInit, decode_encode .crcByte, decode_encode .crcTx, decode_encode .crcRx,
    decode_encode .split, decode_encode .combine, decode_encode .serAppend, decode_encode .serRd, decode_encode .serWr1,
    decode_encode .serWrn, decode_encode .parse, decode_encode .parseRaw, decode_encode .rxClear⟩

end Sys2Proof

namespace Sys2Proof.Machine

/-! ## The completion step on each kind of word -/

/-- An engine with no wait left takes its completion step (R82). -/
theorem step_of_completing {s : State} (heng : s.eng = .exec 0) (hreset : resetPending s = false) :
    step s = completeCommand s := by
  simp [step, heng, hreset]

theorem completeCommand_of_command {s : State} {i : Instr} (h : decode s.cmdr = .command i) :
    completeCommand s = exec i s := by
  simp [completeCommand, h]

theorem completeCommand_of_reserved {s : State} (h : decode s.cmdr = .reserved) :
    completeCommand s = .next (ended (some .illegalReserved) s) := by
  simp [completeCommand, h, raiseError, finish_eq]

theorem completeCommand_of_opcode {s : State} (h : decode s.cmdr = .opcode) :
    completeCommand s = .next (ended (some .illegalOpcode) s) := by
  simp [completeCommand, h, raiseError, finish_eq]

/-- A word with RSV = 0 whose number is none of the listed OPs selects no command. -/
theorem commandOf_of_not_listed {w : Word} (hlt : w.toNat < 256) (h : w.toNat ∉ opCodes.map BitVec.toNat) :
    commandOf (opOf w) = none := by
  refine commandOf_eq_none_iff.2 fun hmem => h ?_
  rw [← toNat_opOf hlt]
  exact List.mem_map_of_mem hmem

/-- Settles O3: the decoder's three answers, each with its completion. -/
theorem illegalWordsRaiseInOrder : Obligations.IllegalWordsRaiseInOrder := by
  intro s heng hreset
  rw [step_of_completing heng hreset]
  refine ⟨fun hge => ?_, fun hlt hop => ?_, fun i hi => ?_⟩
  · have hrsv : rsvOf s.cmdr ≠ 0#24 := mt rsvOf_eq_zero_iff.1 hge.not_gt
    exact completeCommand_of_reserved (decode_of_rsv_ne_zero hrsv)
  · have hnone : commandOf (opOf s.cmdr) = none := commandOf_of_not_listed hlt hop
    exact completeCommand_of_opcode (decode_of_unlisted (rsvOf_eq_zero_iff.2 hlt) hnone)
  · exact completeCommand_of_command (hi ▸ decode_encode i)

end Sys2Proof.Machine

/-!
SUPPORT. The command cycle (40_command_cycle.md R81 to R86): acceptance, the wait, and the completion that ends it.
-/

namespace Sys2Proof.Machine

/-! ## Every completion ends in the last lines of R82 -/

/-- A command ends with some error record, or none, in some state it leaves. -/
theorem exists_exec_eq_finish (i : Instr) (s : State) : ∃ r u, exec i s = .next (finish r u) := by
  cases hentry : firstError (entryChecks i s) with
  | some e => exact ⟨_, _, exec_of_entryChecks_fail hentry⟩
  | none =>
    cases hframe : firstError (frameChecks i s) with
    | some e => exact ⟨_, _, exec_of_frameChecks_fail hentry hframe⟩
    | none => exact ⟨_, _, exec_of_checks_pass hentry hframe⟩

/-- The completion of any word, legal or not, ends as a command does. -/
theorem exists_completeCommand_eq_finish (s : State) : ∃ r u, completeCommand s = .next (finish r u) := by
  cases hd : decode s.cmdr with
  | command i =>
    rw [completeCommand_of_command hd]
    exact exists_exec_eq_finish i s
  | reserved => exact ⟨_, _, completeCommand_of_reserved hd⟩
  | opcode => exact ⟨_, _, completeCommand_of_opcode hd⟩

/-- Settles O6: whichever checks fail, the command ends in `finish`, which sets DONE and ENG. -/
theorem everyCommandCompletes : Obligations.EveryCommandCompletes := by
  intro i s
  obtain ⟨r, u, heq⟩ := exists_exec_eq_finish i s
  exact ⟨finish r u, heq, rfl, rfl⟩

/-- Settles O4: the step is the completion, and the completion is the command's. -/
theorem stepRunsTheDecodedCommand : Obligations.StepRunsTheDecodedCommand :=
  fun _ _ hreset heng hd => (step_of_completing heng hreset).trans (completeCommand_of_command hd)

/-! ## The wait -/

/-- An engine that still waits lets the outside world have its cycle. -/
theorem step_of_waiting {s : State} {n : Nat} (heng : s.eng = .exec (n + 1)) (hreset : resetPending s = false) :
    step s = .next (hostCycle s) := by
  simp [step, heng, hreset]

/-- Settles O26, by induction on the wait: each host cycle takes one cycle off it, and an engine with none left
completes. -/
theorem acceptedCommandCompletesUnlessReset : Obligations.AcceptedCommandCompletesUnlessReset := by
  intro s n heng hreset
  induction n generalizing s with
  | zero =>
    obtain ⟨r, u, heq⟩ := exists_completeCommand_eq_finish s
    have hstep : step s = .next (finish r u) :=
      (step_of_completing heng (resetPending_noReset hreset)).trans heq
    exact ⟨finish r u, (runsTo_succ hstep 0 _).2 ((runsTo_zero _ _).2 rfl), rfl, rfl⟩
  | succ n ih =>
    obtain ⟨-, hwait, hinputs⟩ := hostCycle_of_waiting heng
    have hstep := step_of_waiting heng (resetPending_noReset hreset)
    obtain ⟨t, hrun, hidle, hdone⟩ := ih _ hwait (hreset.tail hinputs)
    exact ⟨t, (runsTo_succ hstep (n + 1) t).2 hrun, hidle, hdone⟩

/-! ## Acceptance -/

/-- A cycle of the wait does not make the engine idle, and an idle engine stays idle. -/
theorem HostTurn.idle_iff {s s' : State} {a : Access} (h : HostTurn s a s') : s'.eng = .idle ↔ s.eng = .idle := by
  obtain ⟨rest, -, ⟨heng, rfl⟩ | ⟨n, heng, rfl⟩⟩ := h <;> simp [heng]

/-- Settles O18: CMD stands at 0x008, and its write is an acceptance exactly when the engine is idle. -/
theorem commandAcceptance : Obligations.CommandAcceptance := by
  intro s s' a h hsize hoff hw
  have hal : a.haddr.toNat % 4 = 0 := by omega
  have hnotStatus : a.haddr.toNat ≠ 0x004 := by omega
  rw [h.step_eq, hostAccess_write hsize hal hw]
  refine ⟨fun hidle => ⟨Config.cmdLatency s'.draws, s'.draws + 1, ?_⟩, fun hbusy => ?_⟩
  · rw [hostWrite_at (r := .cmd) (h.idle_iff.2 hidle) hoff nofun]
    rfl
  · rw [hostWrite_of_busy hnotStatus (mt h.idle_iff.1 hbusy)]

/-! ## The control commands -/

/-- Settles O38: NOP makes no check and writes nothing before it ends. -/
theorem nopOnlyCompletes : Obligations.NopOnlyCompletes :=
  ⟨rfl, fun _ => exec_of_checks_pass (i := .nop) rfl rfl⟩

/-- Settles O39: RX_CLEAR makes no check, and what it leaves before it ends is the flush. -/
theorem rxClearFlushesTheReceiveSide : Obligations.RxClearFlushesTheReceiveSide :=
  ⟨rfl, fun _ => exec_of_checks_pass (i := .rxClear) rfl rfl⟩

end Sys2Proof.Machine

/-!
SUPPORT. The CRC engine (41_crc.md R90 to R97): crc_step in numbers, the residue of a framed body, the four CRC commands,
and the loopback of a frame that SER_APPEND built.
-/

namespace Sys2Proof.Machine

/-! ## The CRC commands (R93 to R96) -/

/-- Settles O31: CRC_INIT makes no check, and CRC stands at 0x020. -/
theorem crcInitLoadsFfff : Obligations.CrcInitLoadsFfff :=
  ⟨rfl, fun _ => exec_of_checks_pass (i := .crcInit) rfl rfl,
    fun _ hs => hostWrite_at (r := .crc) hs rfl nofun _⟩

/-- CRC_BYTE of an ARG0 above 0xFF is refused. -/
theorem exec_crcByte_of_gt {s : State} (h : 0xFF < s.arg0.toNat) :
    exec .crcByte s = .next (ended (some .cfgRange) s) :=
  exec_of_entryChecks_fail (i := .crcByte) (firstError_singleton_eq_some.2 ⟨(exceeds8_iff _).2 h, rfl⟩)

/-- CRC_BYTE of a byte folds it into ACC. -/
theorem exec_crcByte_of_le {s : State} (h : s.arg0.toNat ≤ 0xFF) :
    exec .crcByte s = .next (ended none { s with crc := crcStep s.crc (BitVec.ofNat 8 s.arg0.toNat) }) := by
  have hpass : exceeds8 s.arg0 = false := by
    rw [Bool.eq_false_iff, ne_eq, exceeds8_iff]
    omega
  rw [← low8_eq_ofNat]
  exact exec_of_checks_pass (i := .crcByte) (firstError_singleton_eq_none.2 hpass) rfl

/-- Settles O32: the RANGE check decides. -/
theorem crcByteFoldsOneByte : Obligations.CrcByteFoldsOneByte :=
  ⟨rfl, fun _ => ⟨exec_crcByte_of_gt, exec_crcByte_of_le⟩⟩

/-- R95, R96: a CRC result in the statements' words. -/
theorem putCrc_eq (c : Half) (s : State) : putCrc c s = { s with crc := c, res0 := BitVec.ofNat 32 c.toNat } := by
  rw [putCrc, BitVec.ofNat_toNat]

/-- The transmit bytes are the sequence that TXBUF begins with. -/
theorem txBytes_of_startsWith {s : State} {bs : List Byte} (hlen : bs.length = s.txlen.toNat)
    (h : StartsWith s.txbuf bs) : txBytes s = bs := by
  rw [txBytes, ← hlen, h.firstEntries]

/-- Settles O33: a beginning of TXBUF is no longer than TXBUF, so the LEN check passes for it. -/
theorem crcTxOfTheTransmitBuffer : Obligations.CrcTxOfTheTransmitBuffer := by
  refine ⟨rfl, fun s => ⟨fun hlong => ?_, fun bs hlen hbs => ?_⟩⟩
  · exact exec_of_entryChecks_fail (i := .crcTx) (firstError_singleton_eq_some.2 ⟨decide_eq_true hlong, rfl⟩)
  · have hfits : ¬Config.bufBytes < s.txlen.toNat := (hlen ▸ hbs.le).not_gt
    rw [exec_of_checks_pass (i := .crcTx) (firstError_singleton_eq_none.2 (decide_eq_false hfits)) rfl,
      leftBySuccess, txBytes_of_startsWith hlen hbs, putCrc_eq, finish_eq]

/-- Settles O34: CRC_RX makes no check. -/
theorem crcRxOfTheReceiveBuffer : Obligations.CrcRxOfTheReceiveBuffer := by
  refine ⟨rfl, fun s bs hbs => ?_⟩
  rw [exec_of_checks_pass (i := .crcRx) rfl rfl, leftBySuccess, hbs.bytes, putCrc_eq, finish_eq]

/-! ## crc_step in numbers (R90) -/

/-- One iteration of R90's loop on numbers. -/
def shiftNumber (x : Nat) : Nat := if x % 2 = 1 then (x / 2) ^^^ 0xA001 else x / 2

/-- One iteration of the model's loop, as a number. -/
theorem toNat_crcShift (c : Half) : (crcShift c).toNat = shiftNumber c.toNat := by
  have hhalf : (c >>> 1).toNat = c.toNat / 2 := by rw [BitVec.toNat_ushiftRight, Nat.shiftRight_eq_div_pow, pow_one]
  have hbit : c.getLsbD 0 = decide (c.toNat % 2 = 1) := Nat.testBit_zero c.toNat
  simp only [crcShift, shiftNumber, hbit, decide_eq_true_iff]
  split
  · rw [BitVec.toNat_xor, hhalf, BitVec.toNat_ofNat]
  · exact hhalf

/-- The loop's last iteration can be taken out instead of its first. -/
theorem crcShifts_succ_eq_crcShift (n : Nat) (c : Half) : crcShifts (n + 1) c = crcShift (crcShifts n c) := by
  induction n generalizing c with
  | zero => rfl
  | succ n ih => rw [crcShifts, ih, ← crcShifts]

/-- The model's loop, as a number. -/
theorem toNat_crcShifts (n : Nat) (c : Half) : (crcShifts n c).toNat = Nat.repeat shiftNumber n c.toNat := by
  induction n with
  | zero => rfl
  | succ n ih => rw [crcShifts_succ_eq_crcShift, toNat_crcShift, ih, Nat.repeat]

/-- Settles O28: the byte is XORed as a number, then each of the eight iterations is the rule's. -/
theorem crcStepIsTheShiftLoop : Obligations.CrcStepIsTheShiftLoop := by
  intro c b
  have hxor : (c ^^^ b.setWidth 16).toNat = c.toNat ^^^ b.toNat := by
    rw [BitVec.toNat_xor, BitVec.toNat_setWidth_of_le (by decide)]
  rw [crcStep, toNat_crcShifts, hxor]
  rfl

/-! ## The residue of a framed body (R97 (c)) -/

/-- XOR with its own low byte leaves the high byte of a word over a zero byte. -/
theorem xor_loByte (c : Half) : c ^^^ (loByte c).setWidth 16 = hiByte c ++ 0#8 := by
  ext i hi
  rw [BitVec.getElem_append]
  by_cases hlow : i < 8
  · simp [loByte, hlow, BitVec.getLsbD_eq_getElem hi]
  · have hplace : 8 + (i - 8) = i := by omega
    simp [loByte, hiByte, hlow, hplace, BitVec.getLsbD_eq_getElem hi]

/-- Folding in its own low byte shifts the accumulator by one byte: no iteration of the loop XORs the polynomial. -/
theorem crcStep_loByte (c : Half) : crcStep c (loByte c) = (hiByte c).setWidth 16 := by
  apply BitVec.eq_of_toNat_eq
  have hnum : (hiByte c ++ 0#8).toNat = (hiByte c).toNat * 2 ^ 8 := by
    rw [app_toNat, BitVec.toNat_zero, Nat.add_zero]
  have hlow : (hiByte c ++ 0#8).toNat % 2 ^ 8 = 0 := hnum ▸ Nat.mul_mod_left _ _
  rw [crcStep, xor_loByte, crcShifts_of_low_zero 8 _ hlow, hnum, Nat.mul_div_cancel _ (Nat.two_pow_pos 8),
    BitVec.toNat_setWidth_of_le (by decide)]

/-- Folding a byte into itself leaves 0. -/
theorem crcStep_setWidth_self (b : Byte) : crcStep (b.setWidth 16) b = 0#16 := by
  rw [crcStep, BitVec.xor_self]
  rfl

/-- A CRC continued over its own two wire bytes is 0. -/
theorem crcFrom_crcBytes (c : Half) : crcFrom c (crcBytes c) = 0#16 := by
  rw [crcBytes, crcFrom_cons, crcStep_loByte, crcFrom_cons, crcStep_setWidth_self, crcFrom_nil]

/-- Settles O29: after the body the accumulator is the body's CRC, and its own wire bytes take it to 0. -/
theorem crcResidueIsZero : Obligations.CrcResidueIsZero := by
  intro bs
  rw [framed_eq, serialize, crc16, crcFrom_append]
  exact crcFrom_crcBytes (crc16 bs)

/-! ## A stream of CRC_BYTE commands (R97 (a)) -/

/-- CRC_BYTE with ARG0 set to a byte folds that byte. -/
theorem exec_crcByte_of_byte (b : Byte) (s : State) :
    exec .crcByte { s with arg0 := b.setWidth 32 } =
      .next (ended none { s with arg0 := b.setWidth 32, crc := crcStep s.crc b }) := by
  have hnum : (b.setWidth 32).toNat = b.toNat := BitVec.toNat_setWidth_of_le (by decide)
  have hle : (b.setWidth 32).toNat ≤ 0xFF := by omega
  rw [exec_crcByte_of_le hle, hnum, BitVec.ofNat_toNat, BitVec.setWidth_eq]

/-- A stream of CRC_BYTE commands goes through and continues the CRC in ACC over its bytes. -/
theorem foldBytes_crc (bs : List Byte) (s : State) : ∃ u, foldBytes bs s = .next u ∧ u.crc = crcFrom s.crc bs := by
  induction bs generalizing s with
  | nil => exact ⟨s, rfl, rfl⟩
  | cons b bs ih =>
    rw [foldBytes, exec_crcByte_of_byte]
    exact ih _

/-- Settles O30: CRC_INIT starts the stream at CRC_INIT's value. -/
theorem crcByteStreamGivesCrc16 : Obligations.CrcByteStreamGivesCrc16 := by
  intro bs s
  obtain ⟨u, hfold, hcrc⟩ := foldBytes_crc bs (ended none { s with crc := Config.crcInit })
  exact ⟨_, u, exec_of_checks_pass (i := .crcInit) rfl rfl, hfold, hcrc⟩

/-! ## Pushing a sequence (R121) -/

/-- But for a 0x03 response, RXNEED is fixed by EXP.FC (R120). -/
theorem rxNeed_of_fc_ne_read {s t : State} (hfc : t.exp.fc = s.exp.fc) (hread : s.exp.fc ≠ .read) :
    rxNeed t = rxNeed s := by
  cases h : s.exp.fc with
  | read => exact absurd h hread
  | none => rw [rxNeed_noExp h, rxNeed_noExp (hfc.trans h)]
  | write1 | writeN => rw [rxNeed_echo (s := s) (by simp [h]), rxNeed_echo (s := t) (by simp [hfc, h])]

/-- A push below RXNEED is stored and counted. -/
theorem pushByte_of_lt {s : State} (h : s.rxlen.toNat < rxNeed s) (b : Byte) :
    pushByte b s = { s with rxbuf := s.rxbuf.setIfInBounds s.rxlen.toNat b, rxlen := s.rxlen + 1#9 } := if_pos h

/-- A sequence that fits below a fixed RXNEED is stored whole behind what is already received, and counted. -/
theorem pushAll_of_fits {s : State} {bs : List Byte} (hread : s.exp.fc ≠ .read)
    (hfits : s.rxlen.toNat + bs.length ≤ rxNeed s) :
    pushAll bs s = { s with
      rxbuf := storeAt s.rxbuf s.rxlen.toNat bs, rxlen := BitVec.ofNat 9 (s.rxlen.toNat + bs.length) } := by
  induction bs generalizing s with
  | nil => simp [pushAll, storeAt]
  | cons b bs ih =>
    rw [List.length_cons] at hfits ⊢
    have hlt : s.rxlen.toNat < rxNeed s := by omega
    have hpush := pushByte_of_lt hlt b
    have hexp : (pushByte b s).exp = s.exp := by rw [hpush]
    have hlen : (pushByte b s).rxlen.toNat = s.rxlen.toNat + 1 := by rw [hpush, toNat_rxlen_succ hlt]
    have hneed : rxNeed (pushByte b s) = rxNeed s := rxNeed_of_fc_ne_read (by rw [hexp]) hread
    rw [pushAll, ih (hexp ▸ hread) (by omega), hlen, hpush, Nat.add_assoc, Nat.add_comm 1]
    rfl

/-! ## The loopback of SER_APPEND (R92, R130) -/

/-- SER_APPEND of a body of 2 to 258 bytes makes no error. -/
theorem exec_serAppend_of_fits {s : State} (hmin : 2 ≤ s.txlen.toNat) (hmax : s.txlen.toNat ≤ 258) :
    exec .serAppend s = .next (finish none (leftBySuccess .serAppend s)) :=
  exec_of_checks_pass (i := .serAppend) (firstError_singleton_eq_none.2 (by simp; omega)) rfl

/-- SER_APPEND's new TXLEN covers the body and its CRC. -/
theorem toNat_txlen_serAppend {s : State} (hmax : s.txlen.toNat ≤ 258) :
    (leftBySuccess .serAppend s).txlen.toNat = s.txlen.toNat + 2 := by
  simp only [leftBySuccess, flushRx_txlen, BitVec.toNat_ofNat]
  omega

/-- After SER_APPEND the transmit bytes are the old ones, serialized. -/
theorem txBytes_serAppend {s : State} (hmax : s.txlen.toNat ≤ 258) :
    txBytes (leftBySuccess .serAppend s) = serialize (txBytes s) := by
  rw [txBytes, toNat_txlen_serAppend hmax]
  exact firstEntries_storeAt_append s.txbuf s.txlen.toNat (crcBytes _) (by simpa using hmax)

/-- PARSE_RAW of a serialized body makes no error, and records the frame. -/
theorem exec_parseRaw_of_serialized {s : State} {body : List Byte} (hlen : 4 ≤ s.rxlen.toNat)
    (hf : rxBytes s = serialize body) : exec .parseRaw s = .next (finish none (leftByRejection s)) := by
  have hcrc : frameCalc (rxBytes s) = frameRecv (rxBytes s) := by rw [hf, frameCalc_serialize, frameRecv_serialize]
  exact exec_of_checks_pass (i := .parseRaw) (firstError_singleton_eq_none.2 (by simpa using hlen))
    (firstError_singleton_eq_none.2 (by simp [hcrc]))

/-- A serialized body passes the CRC check. -/
theorem frameOk_serialize (body : List Byte) : frameOk (serialize body) = true := by
  rw [frameOk, frameCalc_serialize, frameRecv_serialize, beq_self_eq_true]

/-- With nothing expected and nothing received, a serialized body pushed byte for byte passes PARSE_RAW. -/
theorem parseRaw_of_pushed {s : State} {body : List Byte} (hfc : s.exp.fc = .none) (hempty : s.rxlen = 0#9)
    (hmin : 4 ≤ (serialize body).length) (hmax : (serialize body).length ≤ 260) :
    ∃ u, exec .parseRaw (pushAll (serialize body) s) = .next u ∧ u.status.error = none ∧ u.status.crcok = true ∧
      u.status.rxovf = s.status.rxovf ∧ u.rxlen = BitVec.ofNat 9 (serialize body).length := by
  have hzero : s.rxlen.toNat = 0 := by simp [hempty]
  have hpushed := pushAll_of_fits (s := s) (bs := serialize body) (by simp [hfc]) (by rw [rxNeed_noExp hfc]; omega)
  rw [hzero, Nat.zero_add] at hpushed
  have hrxlen : (pushAll (serialize body) s).rxlen.toNat = (serialize body).length := by
    rw [hpushed]
    exact Nat.mod_eq_of_lt (by omega)
  have hframe : rxBytes (pushAll (serialize body) s) = serialize body := by
    rw [rxBytes, hrxlen, hpushed]
    exact firstEntries_storeAt_zero s.rxbuf _ hmax
  refine ⟨_, exec_parseRaw_of_serialized (hrxlen.symm ▸ hmin) hframe, rfl, ?_, ?_, ?_⟩
  · exact (congrArg frameOk hframe).trans (frameOk_serialize body)
  · rw [hpushed]
    rfl
  · rw [hpushed]
    rfl

/-- Settles O51: SER_APPEND leaves no expectation and an empty receive side, and its frame fits below RXNEED = 260. -/
theorem appendedFrameLoopsBack : Obligations.AppendedFrameLoopsBack := by
  intro s hmin hmax
  have hlen : (serialize (txBytes s)).length = s.txlen.toNat + 2 := by
    rw [length_serialize, txBytes, length_firstEntries]
    omega
  obtain ⟨u, hparse, herror, hcrcok, hrxovf, hrxlen⟩ :=
    parseRaw_of_pushed (s := finish none (leftBySuccess .serAppend s)) (body := txBytes s) rfl rfl (by omega) (by omega)
  refine ⟨_, u, exec_serAppend_of_fits hmin hmax, ?_, herror, hcrcok, hrxovf, ?_⟩
  · rwa [← txBytes_serAppend hmax] at hparse
  · rw [hrxlen, hlen]
    rfl

end Sys2Proof.Machine

/-!
SUPPORT. The word codec (42_word_codec.md R100 to R104): the inverse laws, the codec in numbers, and its two commands.
-/

namespace Sys2Proof.Machine

/-! ## The inverse laws (R102) -/

/-- The halves of a word make it up again. -/
theorem combineU32_splitU32 (x : Word) : combineU32 (splitU32 x).1 (splitU32 x).2 = x :=
  (BitVec.extractLsb'_append_extractLsb'_eq_extractLsb' (x := x) rfl).trans BitVec.extractLsb'_eq_self

/-- A combined word has the two halves it was made of. -/
theorem splitU32_combineU32 (hi lo : Half) : splitU32 (combineU32 hi lo) = (hi, lo) :=
  Prod.ext BitVec.extractLsb'_append_eq_left BitVec.extractLsb'_append_eq_right

/-- Settles O37: the two laws. -/
theorem splitAndCombineAreInverses : Obligations.SplitAndCombineAreInverses :=
  ⟨combineU32_splitU32, splitU32_combineU32⟩

/-! ## The codec in numbers (R100, R101) -/

/-- The high half of a split, in the 32 bits of RES0. -/
theorem splitU32_fst_setWidth (x : Word) : (splitU32 x).1.setWidth 32 = BitVec.ofNat 32 (x.toNat / 65536) := by
  apply BitVec.eq_of_toNat_eq
  simp only [splitU32, BitVec.toNat_setWidth, BitVec.extractLsb'_toNat, BitVec.toNat_ofNat, Nat.shiftRight_eq_div_pow]
  omega

/-- The low half of a split, in the 32 bits of RES1. -/
theorem splitU32_snd_setWidth (x : Word) : (splitU32 x).2.setWidth 32 = BitVec.ofNat 32 (x.toNat % 65536) := by
  apply BitVec.eq_of_toNat_eq
  rw [BitVec.toNat_setWidth, BitVec.toNat_ofNat]
  exact congrArg (· % 2 ^ 32) (toNat_low16 x)

/-- Only the low operand has to be a 16-bit one: what the high operand has above bit 15 is beyond the 32 bits of the
result on both sides. -/
theorem combineU32_low16 (a : Word) {b : Word} (hb : b.toNat ≤ 0xFFFF) :
    combineU32 (low16 a) (low16 b) = BitVec.ofNat 32 (65536 * a.toNat + b.toNat) := by
  apply BitVec.eq_of_toNat_eq
  rw [combineU32, app_toNat, toNat_low16, toNat_low16, BitVec.toNat_ofNat]
  omega

/-! ## The codec commands (R103, R104) -/

/-- Settles O35: SPLIT makes no check, and RES0 and RES1 take the two halves. -/
theorem splitGivesBothHalves : Obligations.SplitGivesBothHalves := by
  refine ⟨rfl, fun s => ?_⟩
  rw [exec_of_checks_pass (i := .split) rfl rfl, leftBySuccess, splitU32_fst_setWidth, splitU32_snd_setWidth, finish_eq]

/-- COMBINE of an operand above 0xFFFF is refused. -/
theorem exec_combine_of_gt {s : State} (h : 0xFFFF < s.arg0.toNat ∨ 0xFFFF < s.arg1.toNat) :
    exec .combine s = .next (ended (some .cfgRange) s) := by
  have hfail : (exceeds16 s.arg0 || exceeds16 s.arg1) = true := by
    rwa [Bool.or_eq_true, exceeds16_iff, exceeds16_iff]
  exact exec_of_entryChecks_fail (i := .combine) (firstError_singleton_eq_some.2 ⟨hfail, rfl⟩)

/-- COMBINE of two 16-bit operands joins them in RES0. -/
theorem exec_combine_of_le {s : State} (h0 : s.arg0.toNat ≤ 0xFFFF) (h1 : s.arg1.toNat ≤ 0xFFFF) :
    exec .combine s =
      .next (ended none { s with res0 := BitVec.ofNat 32 (65536 * s.arg0.toNat + s.arg1.toNat) }) := by
  have hpass : (exceeds16 s.arg0 || exceeds16 s.arg1) = false := by
    rw [exceeds16_false h0, exceeds16_false h1, Bool.or_false]
  rw [exec_of_checks_pass (i := .combine) (firstError_singleton_eq_none.2 hpass) rfl, leftBySuccess,
    combineU32_low16 _ h1, finish_eq]

/-- Settles O36: the RANGE check of either operand decides. -/
theorem combineJoinsTwoHalves : Obligations.CombineJoinsTwoHalves :=
  ⟨rfl, fun _ => ⟨exec_combine_of_gt, exec_combine_of_le⟩⟩

end Sys2Proof.Machine

/-!
SUPPORT. The serializer (43_serializer.md R107 to R112): SER_APPEND, and the three request builders with their checks and
the frame each commits.
-/

namespace Sys2Proof.Machine

/-! ## What an array begins with -/

/-- An array begins with a sequence that its first entries make up. -/
theorem startsWith_of_firstEntries {α : Type} {n : Nat} {v : Vector α n} {xs : List α}
    (h : firstEntries v xs.length = xs) : StartsWith v xs := by
  intro i hi
  have hlen : xs.length ≤ n := by
    have := congrArg List.length h
    rw [length_firstEntries] at this
    omega
  have hi' : i < (firstEntries v xs.length).length := by rwa [h]
  rw [Vector.getElem?_eq_getElem (by omega), ← firstEntries_getElem v xs.length i hi']
  exact congrArg some (List.getElem_of_eq h hi')

/-- A sequence stored behind an array's beginning extends it. -/
theorem startsWith_storeAt_append {α : Type} {n : Nat} {v : Vector α n} {xs ys : List α} (h : StartsWith v xs)
    (hfits : xs.length + ys.length ≤ n) : StartsWith (storeAt v xs.length ys) (xs ++ ys) :=
  startsWith_of_firstEntries (by rw [List.length_append, firstEntries_storeAt_append v _ ys hfits, h.firstEntries])

/-- A store at an array's start leaves the entries after it. -/
theorem sameFrom_storeAt_zero {α : Type} {n : Nat} (v : Vector α n) (xs : List α) :
    SameFrom xs.length (storeAt v 0 xs) v := by
  simpa using SameFrom.storeAt v xs 0

/-! ## SER_APPEND (R108) -/

/-- SER_APPEND of a body below 2 or above 258 bytes is refused. -/
theorem exec_serAppend_of_misfit {s : State} (h : s.txlen.toNat < 2 ∨ 258 < s.txlen.toNat) :
    exec .serAppend s = .next (ended (some .cfgLen) s) :=
  exec_of_entryChecks_fail (i := .serAppend) (firstError_singleton_eq_some.2 ⟨by simpa using h, rfl⟩)

/-- What SER_APPEND leaves, in the words of the body. -/
theorem leftBySuccess_serAppend {s : State} {body : List Byte} (hlen : body.length = s.txlen.toNat)
    (hbody : StartsWith s.txbuf body) :
    leftBySuccess .serAppend s = { s with
      txbuf := storeAt s.txbuf body.length (crcBytes (crc16 body))
      txlen := BitVec.ofNat 9 (body.length + 2)
      crc := crc16 body
      exp := { addr := 0#8, fc := .none, qty := 0#5 }
      rxlen := 0#9
      status := { s.status with rxovf := false } } := by
  rw [leftBySuccess, txBytes_of_startsWith hlen hbody, ← hlen]
  rfl

/-- Settles O40: the LEN check decides, and the CRC's bytes are stored right behind the body. -/
theorem serAppendAppendsTheCrc : Obligations.SerAppendAppendsTheCrc := by
  refine ⟨rfl, fun s => ⟨exec_serAppend_of_misfit, fun body hlen hbody hmin hmax => ?_⟩⟩
  refine ⟨storeAt s.txbuf body.length (crcBytes (crc16 body)), ?_, ?_,
    SameFrom.storeAt s.txbuf (crcBytes (crc16 body)) body.length⟩
  · rw [exec_serAppend_of_fits (hlen ▸ hmin) (hlen ▸ hmax), leftBySuccess_serAppend hlen hbody, finish_eq]
  · rw [framed_eq]
    exact startsWith_storeAt_append hbody (by simpa using hmax)

/-! ## The checks of the builders (R109 to R112) -/

/-- A RANGE check of an ARG register fails when the register is no 16-bit operand. -/
theorem firstError_range_of_gt {w : Word} (h : 0xFFFF < w.toNat) (l : List (Bool × CmdError)) :
    firstError ((exceeds16 w, .cfgRange) :: l) = some .cfgRange := by
  rw [(exceeds16_iff w).2 h, firstError_cons_true]

/-- A RANGE check of a 16-bit operand leaves the decision to the later checks. -/
theorem firstError_range_of_le {w : Word} (h : w.toNat ≤ 0xFFFF) (l : List (Bool × CmdError)) :
    firstError ((exceeds16 w, .cfgRange) :: l) = firstError l := by
  rw [exceeds16_false h, firstError_cons_false]

/-- The operand checks of SER_RD and SER_WRN end in COUNT for a quantity outside 1..30. -/
theorem quantityChecks_of_badCount {s : State} (h0 : s.arg0.toNat ≤ 0xFFFF)
    (h1 : s.arg1.toNat = 0 ∨ 30 < s.arg1.toNat) :
    firstError [(exceeds16 s.arg0, .cfgRange), (badCount s.arg1, .cfgCount)] = some .cfgCount := by
  rw [firstError_range_of_le h0, (badCount_iff _).2 h1, firstError_cons_true]

/-- The operand checks of SER_RD and SER_WRN pass for a 16-bit start and a quantity in 1..30. -/
theorem quantityChecks_pass {s : State} (h0 : s.arg0.toNat ≤ 0xFFFF) (hmin : 1 ≤ s.arg1.toNat)
    (hmax : s.arg1.toNat ≤ 30) :
    firstError [(exceeds16 s.arg0, .cfgRange), (badCount s.arg1, .cfgCount)] = none := by
  rw [firstError_range_of_le h0, badCount_false hmin hmax, firstError_cons_false, firstError_nil]

/-- A builder is refused while the block is not enabled. -/
theorem exec_builder_of_disconnected {i : Instr} {s : State} (hi : i = .serRd ∨ i = .serWr1 ∨ i = .serWrn)
    (hen : s.ctrl.en = false) : exec i s = .next (ended (some .cfgDisconnected) s) := by
  obtain rfl | rfl | rfl := hi <;> exact exec_of_entryChecks_fail (common_disc hen _)

/-- A builder is refused for a slave address above 62. -/
theorem exec_builder_of_badSlave {i : Instr} {s : State} (hi : i = .serRd ∨ i = .serWr1 ∨ i = .serWrn)
    (hen : s.ctrl.en = true) (hslave : 62 < s.slave.toNat) : exec i s = .next (ended (some .cfgAddr) s) := by
  obtain rfl | rfl | rfl := hi <;> exact exec_of_entryChecks_fail (common_addr hen hslave _)

/-- SER_RD and SER_WRN are refused for a start that is no 16-bit operand. -/
theorem exec_quantityBuilder_of_range {i : Instr} {s : State} (hi : i = .serRd ∨ i = .serWrn)
    (hen : s.ctrl.en = true) (hslave : s.slave.toNat ≤ 62) (h0 : 0xFFFF < s.arg0.toNat) :
    exec i s = .next (ended (some .cfgRange) s) := by
  have hrange := (common_ok hen hslave _).trans (firstError_range_of_gt h0 [(badCount s.arg1, .cfgCount)])
  obtain rfl | rfl := hi <;> exact exec_of_entryChecks_fail hrange

/-- SER_RD and SER_WRN are refused for a quantity outside 1..30. -/
theorem exec_quantityBuilder_of_badCount {i : Instr} {s : State} (hi : i = .serRd ∨ i = .serWrn)
    (hen : s.ctrl.en = true) (hslave : s.slave.toNat ≤ 62) (h0 : s.arg0.toNat ≤ 0xFFFF)
    (h1 : s.arg1.toNat = 0 ∨ 30 < s.arg1.toNat) : exec i s = .next (ended (some .cfgCount) s) := by
  have hcount := (common_ok hen hslave _).trans (quantityChecks_of_badCount h0 h1)
  obtain rfl | rfl := hi <;> exact exec_of_entryChecks_fail hcount

/-- SER_RD with operands in range makes no error. -/
theorem exec_serRd_of_valid {s : State} (hen : s.ctrl.en = true) (hslave : s.slave.toNat ≤ 62)
    (h0 : s.arg0.toNat ≤ 0xFFFF) (hmin : 1 ≤ s.arg1.toNat) (hmax : s.arg1.toNat ≤ 30) :
    exec .serRd s = .next (finish none (leftBySuccess .serRd s)) :=
  exec_of_checks_pass (i := .serRd) ((common_ok hen hslave _).trans (quantityChecks_pass h0 hmin hmax)) rfl

/-- SER_WR1 with operands in range makes no error. -/
theorem exec_serWr1_of_valid {s : State} (hen : s.ctrl.en = true) (hslave : s.slave.toNat ≤ 62)
    (h0 : s.arg0.toNat ≤ 0xFFFF) (h1 : s.arg1.toNat ≤ 0xFFFF) :
    exec .serWr1 s = .next (finish none (leftBySuccess .serWr1 s)) := by
  have hpass : (exceeds16 s.arg0 || exceeds16 s.arg1) = false := by
    rw [exceeds16_false h0, exceeds16_false h1, Bool.or_false]
  exact exec_of_checks_pass (i := .serWr1)
    ((common_ok hen hslave _).trans (firstError_singleton_eq_none.2 hpass)) rfl

/-- SER_WRN with operands in range makes no error. -/
theorem exec_serWrn_of_valid {s : State} (hen : s.ctrl.en = true) (hslave : s.slave.toNat ≤ 62)
    (h0 : s.arg0.toNat ≤ 0xFFFF) (hmin : 1 ≤ s.arg1.toNat) (hmax : s.arg1.toNat ≤ 30) :
    exec .serWrn s = .next (finish none (leftBySuccess .serWrn s)) :=
  exec_of_checks_pass (i := .serWrn) ((common_ok hen hslave _).trans (quantityChecks_pass h0 hmin hmax)) rfl

/-! ## The frames of the builders (R67 to R69, R109) -/

/-- R109's commit of a serialized body that fits into TXBUF leaves the built request. -/
theorem builtRequest_of_commit {s : State} {body : List Byte} (fc : ExpFc) (qty : Nat) (hfits : body.length + 2 ≤ 260) :
    BuiltRequest s body fc qty (.next (finish none (commit (serialize body) fc (BitVec.ofNat 5 qty) s))) := by
  have hlen := length_serialize body
  refine ⟨storeAt s.txbuf 0 (serialize body), ?_, ?_, ?_⟩
  · rw [commit, frameRecv_serialize, hlen, finish_eq]
    rfl
  · rw [framed_eq]
    exact .storeAt _ _ (hlen ▸ hfits)
  · exact hlen ▸ sameFrom_storeAt_zero s.txbuf (serialize body)

/-- R67's body, in the statements' words. -/
theorem readBody_low16 {start qty : Word} (a : Byte) (h0 : start.toNat ≤ 0xFFFF) (h1 : qty.toNat ≤ 30) :
    readBody a (low16 start) (low16 qty) =
      [a, 0x03#8, highByte start.toNat, lowByte start.toNat, 0x00#8, lowByte qty.toNat] := by
  rw [readBody, be_low16 h0, be_qty h1]
  rfl

/-- R68's body, in the statements' words. -/
theorem write1Body_low16 {reg value : Word} (a : Byte) (h0 : reg.toNat ≤ 0xFFFF) (h1 : value.toNat ≤ 0xFFFF) :
    write1Body a (low16 reg) (low16 value) =
      [a, 0x06#8, highByte reg.toNat, lowByte reg.toNat, highByte value.toNat, lowByte value.toNat] := by
  rw [write1Body, be_low16 h0, be_low16 h1]
  rfl

/-- R69's byte count: twice the quantity, in one byte. -/
theorem loByte_two_mul_low16 (q : Word) : loByte (2#16 * low16 q) = BitVec.ofNat 8 (2 * q.toNat) := by
  apply BitVec.eq_of_toNat_eq
  rw [← lowByte_eq, lowByte, BitVec.toNat_ofNat, BitVec.toNat_ofNat, BitVec.toNat_mul, toNat_low16, BitVec.toNat_ofNat]
  omega

/-- R69's body, in the statements' words. -/
theorem writeNBody_low16 {start qty : Word} (a : Byte) (values : List Byte) (h0 : start.toNat ≤ 0xFFFF)
    (h1 : qty.toNat ≤ 30) :
    writeNBody a (low16 start) (low16 qty) values =
      [a, 0x10#8, highByte start.toNat, lowByte start.toNat, 0x00#8, lowByte qty.toNat,
        BitVec.ofNat 8 (2 * qty.toNat)] ++ values := by
  rw [writeNBody, be_low16 h0, be_qty h1, loByte_two_mul_low16]
  rfl

/-- The wire bytes of the values that VAL begins with. -/
theorem valBytes_of_startsWith {s : State} {vs : List Half} (h : StartsWith s.val vs) :
    valBytes s vs.length = wireWords vs := by
  rw [valBytes, h.firstEntries, wireWords_eq]

/-- Settles O41: the checks in R110's order, then the commit of R67's frame. -/
theorem serRdBuildsAReadRequest : Obligations.SerRdBuildsAReadRequest := by
  refine ⟨rfl, fun s => ⟨exec_builder_of_disconnected (.inl rfl), exec_builder_of_badSlave (.inl rfl),
    exec_quantityBuilder_of_range (.inl rfl), exec_quantityBuilder_of_badCount (.inl rfl),
    fun hen hslave h0 hmin hmax => ?_⟩⟩
  rw [exec_serRd_of_valid hen hslave h0 hmin hmax, leftBySuccess, readBody_low16 _ h0 hmax,
    extractLsb'_zero_eq_ofNat]
  exact builtRequest_of_commit .read _ (by simp)

/-- Settles O42: the checks in R111's order, then the commit of R68's frame. -/
theorem serWr1BuildsAWriteRequest : Obligations.SerWr1BuildsAWriteRequest := by
  refine ⟨rfl, fun s => ⟨exec_builder_of_disconnected (.inr (.inl rfl)), exec_builder_of_badSlave (.inr (.inl rfl)),
    fun hen hslave hrange => ?_, fun hen hslave h0 h1 => ?_⟩⟩
  · have hfail : (exceeds16 s.arg0 || exceeds16 s.arg1) = true := by
      rwa [Bool.or_eq_true, exceeds16_iff, exceeds16_iff]
    exact exec_of_entryChecks_fail (i := .serWr1)
      ((common_ok hen hslave _).trans (firstError_singleton_eq_some.2 ⟨hfail, rfl⟩))
  · rw [exec_serWr1_of_valid hen hslave h0 h1, leftBySuccess, write1Body_low16 _ h0 h1]
    exact builtRequest_of_commit .write1 0 (by simp)

/-- Settles O43: the checks in R112's order, then the commit of R69's frame, which has at most 69 bytes. -/
theorem serWrnBuildsAWriteRequest : Obligations.SerWrnBuildsAWriteRequest := by
  refine ⟨rfl, fun s => ⟨exec_builder_of_disconnected (.inr (.inr rfl)), exec_builder_of_badSlave (.inr (.inr rfl)),
    exec_quantityBuilder_of_range (.inr rfl), exec_quantityBuilder_of_badCount (.inr rfl),
    fun hen hslave h0 hmin hmax vs hlen hvs => ?_⟩⟩
  have hqty : (low16 s.arg1).toNat = vs.length := by
    rw [toNat_low16, hlen]
    omega
  have hvalues : (wireWords vs).length = 2 * vs.length := by rw [wireWords_eq, length_wireWords]
  rw [exec_serWrn_of_valid hen hslave h0 hmin hmax, leftBySuccess, writeNBody_low16 _ _ h0 hmax, hqty,
    valBytes_of_startsWith hvs, extractLsb'_zero_eq_ofNat]
  exact builtRequest_of_commit .writeN _ (by simp only [List.length_append, List.length_cons, List.length_nil]; omega)

end Sys2Proof.Machine

/-!
SUPPORT. Whole exchanges (44_parser.md R120, R121, R124, R126 and R127): a response pushed byte by byte into an empty
receive side is received whole, and PARSE of it gives back the data it was made of.
-/

namespace Sys2Proof.Machine

/-! ## A sequence pushed into an empty receive side (R121) -/

/-- Two sequences pushed one behind the other are their concatenation pushed. -/
theorem pushAll_append (as bs : List Byte) (s : State) : pushAll (as ++ bs) s = pushAll bs (pushAll as s) := by
  induction as generalizing s with
  | nil => rfl
  | cons a as ih => exact ih (pushByte a s)

/-- Storing one entry more is storing it behind the others. -/
theorem storeAt_concat {α : Type} {n : Nat} (v : Vector α n) (k : Nat) (xs : List α) (x : α) :
    storeAt v k (xs ++ [x]) = (storeAt v k xs).setIfInBounds (k + xs.length) x := by
  induction xs generalizing v k with
  | nil => rfl
  | cons y ys ih =>
    rw [List.cons_append, storeAt, ih, storeAt, List.length_cons, Nat.add_assoc, Nat.add_comm 1]

/-- `s` with exactly the sequence `f` received. -/
def withReceived (f : List Byte) (s : State) : State :=
  { s with rxbuf := storeAt s.rxbuf 0 f, rxlen := BitVec.ofNat 9 f.length }

@[simp] theorem withReceived_exp (f : List Byte) (s : State) : (withReceived f s).exp = s.exp := rfl
@[simp] theorem withReceived_status (f : List Byte) (s : State) : (withReceived f s).status = s.status := rfl
@[simp] theorem withReceived_rdat (f : List Byte) (s : State) : (withReceived f s).rdat = s.rdat := rfl

/-- RXLEN of a sequence that fits into RXBUF. -/
theorem toNat_rxlen_withReceived {f : List Byte} (h : f.length ≤ 260) (s : State) :
    (withReceived f s).rxlen.toNat = f.length := Nat.mod_eq_of_lt (by omega)

/-- The received bytes are the received sequence. -/
theorem rxBytes_withReceived {f : List Byte} (h : f.length ≤ 260) (s : State) : rxBytes (withReceived f s) = f := by
  rw [rxBytes, toNat_rxlen_withReceived h]
  exact firstEntries_storeAt_zero s.rxbuf f h

/-- A push below RXNEED is received behind what is there. -/
theorem pushByte_withReceived {f : List Byte} {s : State} (hfits : f.length ≤ 260)
    (hroom : f.length < rxNeed (withReceived f s)) (b : Byte) :
    pushByte b (withReceived f s) = withReceived (f ++ [b]) s := by
  have hlen := toNat_rxlen_withReceived hfits s
  rw [pushByte_of_lt (hlen.symm ▸ hroom), hlen, withReceived, withReceived, storeAt_concat, Nat.zero_add,
    List.length_append, BitVec.ofNat_add]
  rfl

/-- A sequence is received whole when each of its bytes finds room below the RXNEED of those before it. -/
theorem pushAll_eq_withReceived {f : List Byte} {s : State} (hempty : s.rxlen = 0#9) (hfits : f.length ≤ 260)
    (hroom : ∀ k < f.length, k < rxNeed (withReceived (f.take k) s)) : pushAll f s = withReceived f s := by
  have htaken : ∀ k ≤ f.length, pushAll (f.take k) s = withReceived (f.take k) s := by
    intro k hk
    induction k with
    | zero => rw [List.take_zero, withReceived, List.length_nil, ← hempty]; rfl
    | succ k ih =>
      have hlen : (f.take k).length = k := List.length_take_of_le (by omega)
      rw [List.take_succ_eq_append_getElem hk, pushAll_append, ih (by omega)]
      exact pushByte_withReceived (by omega) (hlen.symm ▸ hroom k hk) _
  simpa using htaken f.length le_rfl

/-- RXNEED with three bytes or more of a 0x03 response received is 5 and the third byte (R120). -/
theorem rxNeed_withReceived_of_read {f : List Byte} {s : State} (hfc : s.exp.fc = .read) (hmin : 3 ≤ f.length)
    (hfits : f.length ≤ 260) : rxNeed (withReceived f s) = 5 + (byteAt f 2).toNat := by
  have hcount : (withReceived f s).rxbuf[2] = byteAt f 2 := by
    simp only [withReceived, storeAt_getElem]
    rw [dif_pos (by omega), byteAt_of_lt f 2 hmin]
  have hlen := toNat_rxlen_withReceived hfits s
  rw [rxNeed_body (s := withReceived f s) hfc (by omega), hcount]

/-- The third byte of a 0x03 response fixes its length (R120), so a response of that length is received whole. -/
theorem pushAll_of_readResponse {f : List Byte} {s : State} (hfc : s.exp.fc = .read) (hempty : s.rxlen = 0#9)
    (hlen : f.length = 5 + (byteAt f 2).toNat) : pushAll f s = withReceived f s := by
  have hfits : f.length ≤ 260 := by omega
  refine pushAll_eq_withReceived hempty hfits fun k hk => ?_
  have htake : (f.take k).length = k := List.length_take_of_le hk.le
  by_cases hheader : k < 3
  · have hrxlen := toNat_rxlen_withReceived (f := f.take k) (by omega) s
    rw [rxNeed_header (s := withReceived (f.take k) s) hfc (by omega)]
    exact hheader
  · have hcount : byteAt (f.take k) 2 = byteAt f 2 := by
      rw [byteAt_of_lt _ 2 (by omega), byteAt_of_lt f 2 (by omega), List.getElem_take]
    rw [rxNeed_withReceived_of_read hfc (by omega) (by omega), hcount]
    omega

/-- An echo has RXNEED's 8 bytes, so it is received whole. -/
theorem pushAll_of_echo {f : List Byte} {s : State} (hfc : s.exp.fc = .write1 ∨ s.exp.fc = .writeN)
    (hempty : s.rxlen = 0#9) (hlen : f.length = 8) : pushAll f s = withReceived f s :=
  pushAll_eq_withReceived hempty (by omega) fun k hk => by
    rw [rxNeed_echo (s := withReceived (f.take k) s) hfc]
    omega

/-! ## PARSE of a valid response (R124) -/

/-- PARSE's first checks pass when a response is expected and there. -/
theorem acquisitionChecks_pass {s : State} (hen : s.ctrl.en = true) (hfc : s.exp.fc ≠ .none)
    (hneed : rxNeed s ≤ s.rxlen.toNat) : firstError (acquisitionChecks s) = none := by
  simp [acquisitionChecks, firstError, hen, hfc, hneed]

/-- PARSE's checks of a frame pass for the expected address, function code and byte count and a correct CRC. -/
theorem contentChecks_pass {f : List Byte} {s : State} (haddr : byteAt f 0 = s.exp.addr)
    (hcode : byteAt f 1 = s.exp.fc.code) (hcount : s.exp.fc = .read → (byteAt f 2).toNat = 2 * s.exp.qty.toNat)
    (hcrc : frameCalc f = frameRecv f) : firstError (contentChecks f s) = none := by
  simpa [contentChecks, firstError, haddr, hcode, hcrc] using hcount

/-- PARSE of an expected, whole and serialized response makes no error. -/
theorem exec_parse_withReceived {s : State} {body : List Byte} (hfits : (serialize body).length ≤ 260)
    (hen : s.ctrl.en = true) (hfc : s.exp.fc ≠ .none)
    (hneed : rxNeed (withReceived (serialize body) s) ≤ (serialize body).length)
    (haddr : byteAt (serialize body) 0 = s.exp.addr) (hcode : byteAt (serialize body) 1 = s.exp.fc.code)
    (hcount : s.exp.fc = .read → (byteAt (serialize body) 2).toNat = 2 * s.exp.qty.toNat) :
    exec .parse (withReceived (serialize body) s) =
      .next (finish none (leftBySuccess .parse (withReceived (serialize body) s))) := by
  have hwhole := toNat_rxlen_withReceived hfits s
  have hcrc : frameCalc (serialize body) = frameRecv (serialize body) := by
    rw [frameCalc_serialize, frameRecv_serialize]
  refine exec_of_checks_pass (i := .parse) (acquisitionChecks_pass hen hfc (hwhole.symm ▸ hneed)) ?_
  rw [frameChecks, rxBytes_withReceived hfits]
  exact contentChecks_pass haddr hcode hcount hcrc

/-! ## The data of a response (R126, R127) -/

/-- The body of a 0x03 response: address, function code, byte count, and the words, high byte first (R70). -/
def readResponseBody (a : Byte) (words : List Half) : List Byte :=
  [a, 0x03#8, BitVec.ofNat 8 (2 * words.length)] ++ wireWords words

theorem length_readResponseBody (a : Byte) (words : List Half) :
    (readResponseBody a words).length = 3 + 2 * words.length := by
  rw [readResponseBody, List.length_append, wireWords_eq, length_wireWords]
  rfl

/-- The two wire bytes of the k-th word of a sequence, whatever follows the sequence. -/
theorem getD_wireWords {words : List Half} {k : Nat} (hk : k < words.length) (rest : List Byte) :
    (wireWords words ++ rest).getD (2 * k) 0#8 = hiByte words[k] ∧
      (wireWords words ++ rest).getD (2 * k + 1) 0#8 = loByte words[k] := by
  rw [wireWords_eq]
  induction words generalizing k with
  | nil => exact absurd hk (Nat.not_lt_zero k)
  | cons w ws ih =>
    cases k with
    | zero => exact ⟨rfl, rfl⟩
    | succ k => exact ih (Nat.lt_of_succ_lt_succ hk)

/-- decode_read of a 0x03 response gives the words it was made of. -/
theorem readWords_serialize_readResponseBody (a : Byte) (words : List Half) :
    readWords (serialize (readResponseBody a words)) words.length = words := by
  refine List.ext_getElem (by simp [readWords]) fun k _ hk => ?_
  obtain ⟨hhi, hlo⟩ := getD_wireWords hk (crcBytes (crc16 (readResponseBody a words)))
  have hi : byteAt (serialize (readResponseBody a words)) (3 + 2 * k) = hiByte words[k] := by
    rw [Nat.add_comm]
    exact hhi
  have lo : byteAt (serialize (readResponseBody a words)) (4 + 2 * k) = loByte words[k] := by
    rw [Nat.add_comm]
    exact hlo
  simp only [readWords, List.getElem_map, List.getElem_range, hi, lo, beHalf_hiByte_loByte]

/-- With `words.length` words expected and nothing received, the 0x03 response that carries `words`, pushed byte by byte,
passes PARSE, which stores `words` at the start of RDAT. -/
theorem parse_of_pushed_readResponse {s : State} {words : List Half} (hen : s.ctrl.en = true) (hfc : s.exp.fc = .read)
    (hqty : s.exp.qty.toNat = words.length) (hempty : s.rxlen = 0#9) :
    ∃ u, exec .parse (pushAll (serialize (readResponseBody s.exp.addr words)) s) = .next u ∧
      u.status.error = none ∧ u.status.crcok = true ∧ u.status.rxovf = s.status.rxovf ∧
      u.rdat = storeAt s.rdat 0 words := by
  have hwords := readWords_serialize_readResponseBody s.exp.addr words
  have hcount : (byteAt (serialize (readResponseBody s.exp.addr words)) 2).toNat = 2 * words.length :=
    Nat.mod_eq_of_lt (by omega)
  have hlen : (serialize (readResponseBody s.exp.addr words)).length = 5 + 2 * words.length := by
    rw [length_serialize, length_readResponseBody]
    omega
  have hfits : (serialize (readResponseBody s.exp.addr words)).length ≤ 260 := by omega
  have hneed := rxNeed_withReceived_of_read hfc (by omega) hfits
  have hframe := rxBytes_withReceived hfits s
  have hparse := exec_parse_withReceived hfits hen (by simp [hfc]) (by omega) rfl (by rw [hfc]; rfl)
    fun _ => hcount.trans (by rw [hqty])
  rw [leftBySuccess_parse_of_read (s := withReceived _ s) hfc, hframe] at hparse
  rw [pushAll_of_readResponse hfc hempty (by omega)]
  refine ⟨_, hparse, ?_⟩
  simp [leftByRejection, hframe, frameOk_serialize, hqty, hwords]

/-- The body of a 0x06 or 0x10 response: address, function code, and two words, high byte first (R71, R72). -/
def echoBody (a code : Byte) (x y : Half) : List Byte := [a, code] ++ beBytes x ++ beBytes y

theorem length_serialize_echoBody (a code : Byte) (x y : Half) : (serialize (echoBody a code x y)).length = 8 := rfl

/-- decode_echo of an echo gives the two words it was made of. -/
theorem decodeEcho_serialize_echoBody (a code : Byte) (x y : Half) (s : State) :
    decodeEcho (serialize (echoBody a code x y)) s = { s with res0 := x.setWidth 32, res1 := y.setWidth 32 } := by
  have hx : beHalf (byteAt (serialize (echoBody a code x y)) 2) (byteAt (serialize (echoBody a code x y)) 3) = x :=
    beHalf_hiByte_loByte x
  have hy : beHalf (byteAt (serialize (echoBody a code x y)) 4) (byteAt (serialize (echoBody a code x y)) 5) = y :=
    beHalf_hiByte_loByte y
  rw [decodeEcho, hx, hy]

/-- With an echo expected and nothing received, the 8-byte echo of two words, pushed byte by byte, passes PARSE, which puts
the words into RES0 and RES1. -/
theorem parse_of_pushed_echo {s : State} (x y : Half) (hen : s.ctrl.en = true)
    (hfc : s.exp.fc = .write1 ∨ s.exp.fc = .writeN) (hempty : s.rxlen = 0#9) :
    ∃ u, exec .parse (pushAll (serialize (echoBody s.exp.addr s.exp.fc.code x y)) s) = .next u ∧
      u.status.error = none ∧ u.status.crcok = true ∧ u.res0 = x.setWidth 32 ∧ u.res1 = y.setWidth 32 := by
  have hread : s.exp.fc ≠ .read := by rcases hfc with h | h <;> simp [h]
  have hsome : s.exp.fc ≠ .none := by rcases hfc with h | h <;> simp [h]
  have hlen := length_serialize_echoBody s.exp.addr s.exp.fc.code x y
  have hfits : (serialize (echoBody s.exp.addr s.exp.fc.code x y)).length ≤ 260 := by omega
  have hneed := rxNeed_echo (s := withReceived (serialize (echoBody s.exp.addr s.exp.fc.code x y)) s) hfc
  have hframe := rxBytes_withReceived hfits s
  have hparse := exec_parse_withReceived hfits hen hsome (by omega) rfl rfl (absurd · hread)
  rw [leftBySuccess_parse_of_ne_read (s := withReceived _ s) hread, hframe, decodeEcho_serialize_echoBody] at hparse
  rw [pushAll_of_echo hfc hempty hlen]
  refine ⟨_, hparse, ?_⟩
  simp [leftByRejection, hframe, frameOk_serialize]

/-! ## The exchanges -/

/-- Settles O52: SER_RD leaves an empty receive side and expects the read response of the slave it asked. -/
theorem readExchangeReturnsTheWords : Obligations.ReadExchangeReturnsTheWords := by
  intro s words hen hslave h0 hmin hmax hlen
  have hqty : (leftBySuccess .serRd s).exp.qty.toNat = words.length := by
    simp only [leftBySuccess, commit_exp, BitVec.extractLsb'_toNat, Nat.shiftRight_zero]
    omega
  obtain ⟨u, hparse, herror, hcrcok, hrxovf, hrdat⟩ :=
    parse_of_pushed_readResponse (s := finish none (leftBySuccess .serRd s)) (words := words) hen rfl hqty rfl
  refine ⟨_, u, exec_serRd_of_valid hen hslave h0 hmin hmax, ?_, herror, hcrcok, hrxovf, ?_, ?_⟩
  · rw [framed_eq]
    exact hparse
  · rw [hrdat]
    exact .storeAt _ _ (by omega)
  · rw [hrdat]
    exact sameFrom_storeAt_zero s.rdat words

/-- A 16-bit operand, cut to 16 bits and put into a 32-bit register, is itself. -/
theorem setWidth_low16 {w : Word} (h : w.toNat ≤ 0xFFFF) : (low16 w).setWidth 32 = w := by
  apply BitVec.eq_of_toNat_eq
  rw [BitVec.toNat_setWidth_of_le (by decide), toNat_low16]
  omega

/-- An echo's body, in the statements' words. -/
theorem echoBody_low16 {v w : Word} (a code : Byte) (hv : v.toNat ≤ 0xFFFF) (hw : w.toNat ≤ 0xFFFF) :
    echoBody a code (low16 v) (low16 w) =
      [a, code, highByte v.toNat, lowByte v.toNat, highByte w.toNat, lowByte w.toNat] := by
  rw [echoBody, be_low16 hv, be_low16 hw]
  rfl

/-- After a write request with 16-bit operands has been built, its echo returns the operands in RES0 and RES1. -/
theorem parse_of_pushed_operands {s t : State} (h0 : s.arg0.toNat ≤ 0xFFFF) (h1 : s.arg1.toNat ≤ 0xFFFF)
    (hen : t.ctrl.en = true) (haddr : t.exp.addr = s.slave) (hfc : t.exp.fc = .write1 ∨ t.exp.fc = .writeN)
    (hempty : t.rxlen = 0#9) :
    ∃ u, exec .parse (pushAll (framed [s.slave, t.exp.fc.code, highByte s.arg0.toNat, lowByte s.arg0.toNat,
        highByte s.arg1.toNat, lowByte s.arg1.toNat]) t) = .next u ∧
      u.status.error = none ∧ u.status.crcok = true ∧ u.res0 = s.arg0 ∧ u.res1 = s.arg1 := by
  have hecho := parse_of_pushed_echo (low16 s.arg0) (low16 s.arg1) hen hfc hempty
  rwa [echoBody_low16 _ _ h0 h1, setWidth_low16 h0, setWidth_low16 h1, haddr, ← framed_eq] at hecho

/-- Settles O53: both write requests leave an empty receive side and expect the echo of the slave they wrote. -/
theorem writeExchangeReturnsTheEcho : Obligations.WriteExchangeReturnsTheEcho := by
  intro s hen hslave h0
  refine ⟨fun h1 => ?_, fun hmin hmax => ?_⟩
  · obtain ⟨u, hecho⟩ :=
      parse_of_pushed_operands (t := finish none (leftBySuccess .serWr1 s)) h0 h1 hen rfl (.inl rfl) rfl
    exact ⟨_, u, exec_serWr1_of_valid hen hslave h0 h1, hecho⟩
  · obtain ⟨u, hecho⟩ :=
      parse_of_pushed_operands (t := finish none (leftBySuccess .serWrn s)) h0 (by omega) hen rfl (.inr rfl) rfl
    exact ⟨_, u, exec_serWrn_of_valid hen hslave h0 hmin hmax, hecho⟩

end Sys2Proof.Machine

/-!
SUPPORT. The frame parser and the push (44_parser.md R120 to R130): what a failed command leaves (R125), what the checks of
PARSE and PARSE_RAW decide, in the statements' words, what an accepted frame leaves, and what a push stores.
-/

namespace Sys2Proof.Machine

/-! ## What a failed command leaves (R125, R145) -/

/-- record(f) of the received frame, in the statements' word. -/
theorem leftByRejection_of_received {s : State} {f : List Byte} (h : Received s f) : leftByRejection s = recorded f s := by
  rw [leftByRejection, h.bytes, record_clear]

/-- A refused command other than PARSE and PARSE_RAW has written nothing. -/
theorem leftByRefusal_of_ne_parse {i : Instr} (hp : i ≠ .parse) (hr : i ≠ .parseRaw) (s : State) :
    leftByRefusal i s = s := by
  cases i with
  | parse => exact absurd rfl hp
  | parseRaw => exact absurd rfl hr
  | _ => rfl

/-- A refused PARSE or PARSE_RAW has cleared CRCOK and written nothing else. -/
theorem leftByRefusal_of_parse {i : Instr} (hi : i = .parse ∨ i = .parseRaw) (s : State) :
    leftByRefusal i s = clearCrcok s := by
  obtain rfl | rfl := hi <;> rfl

/-- The ProtocolErrors of R142. -/
def protocolErrors : List CmdError := [.protoAddr, .protoFc, .protoBcnt, .protoCrc]

/-- The checks before the frame raise no ProtocolError. -/
theorem notMem_protocolErrors_of_mem_entryChecks (i : Instr) (s : State) :
    ∀ p ∈ entryChecks i s, p.2 ∉ protocolErrors := by
  cases i <;> simp [entryChecks, commonChecks, acquisitionChecks, protocolErrors]

/-- The checks of a frame raise ProtocolErrors only. -/
theorem mem_protocolErrors_of_mem_frameChecks (i : Instr) (s : State) : ∀ p ∈ frameChecks i s, p.2 ∈ protocolErrors := by
  cases i <;> simp [frameChecks, contentChecks, protocolErrors]

/-- Settles O22, by the three ways a command ends: the kind of the error says which of the two failures it was. -/
theorem failedCommandChangesOnlyStatus : Obligations.FailedCommandChangesOnlyStatus := by
  intro i s t e ht herr
  obtain ⟨e', he, rfl⟩ | ⟨e', -, hf, rfl⟩ | ⟨-, -, rfl⟩ := exec_cases ht
  · obtain rfl : e' = e := Option.some.inj herr
    refine ⟨fun hp hr => ?_, fun hi _ => ?_, fun _ hmem => ?_⟩
    · rw [leftByRefusal_of_ne_parse hp hr, finish_eq]
    · rw [leftByRefusal_of_parse hi]
      rfl
    · exact absurd hmem (notMem_protocolErrors_of_mem_entryChecks i s _ (firstError_mem he))
  · obtain rfl : e' = e := Option.some.inj herr
    have hi := parses_of_frameChecks_fail hf
    refine ⟨fun hp hr => absurd hi (not_or.2 ⟨hp, hr⟩), fun _ hmem => ?_, fun _ _ f hrec => ?_⟩
    · exact absurd (mem_protocolErrors_of_mem_frameChecks i s _ (firstError_mem hf)) hmem
    · rw [leftByRejection_of_received hrec, finish_eq]
  · exact absurd herr nofun

/-! ## PARSE before the frame (R124) -/

/-- PARSE's first checks pass exactly when a response is expected, connected and there. -/
theorem firstError_acquisitionChecks_eq_none {s : State} :
    firstError (acquisitionChecks s) = none ↔ s.ctrl.en = true ∧ s.exp.fc ≠ .none ∧ rxNeed s ≤ s.rxlen.toNat := by
  simp [firstError_eq_none, acquisitionChecks]

/-- Settles O44: the first checks decide in their order. -/
theorem parseChecksBeforeTheFrame : Obligations.ParseChecksBeforeTheFrame := by
  refine fun s => ⟨fun hen => ?_, fun hen hfc => ?_, fun hen hfc hshort => ?_⟩ <;>
    refine exec_of_entryChecks_fail (i := .parse) ?_
  · simp [entryChecks, acquisitionChecks, firstError, hen]
  · simp [entryChecks, acquisitionChecks, firstError, hen, hfc]
  · simp [entryChecks, acquisitionChecks, firstError, hen, hfc, hshort]

/-! ## PARSE on a complete frame (R124) -/

/-- PARSE's checks of a frame pass exactly for the expected address, function code and byte count and a correct CRC. -/
theorem firstError_contentChecks_eq_none {f : List Byte} {s : State} :
    firstError (contentChecks f s) = none ↔ f.getD 0 0#8 = s.exp.addr ∧ f.getD 1 0#8 = s.exp.fc.code ∧
      (s.exp.fc = .read → (f.getD 2 0#8).toNat = 2 * s.exp.qty.toNat) ∧ computedCrc f = carriedCrc f := by
  simp [firstError_eq_none, contentChecks, byteAt, computedCrc_eq, carriedCrc_eq]

/-- PARSE of a complete frame that a check rejects keeps record(f). -/
theorem exec_parse_of_rejected {s : State} {f : List Byte} {e : CmdError} (hen : s.ctrl.en = true)
    (hfc : s.exp.fc ≠ .none) (hneed : rxNeed s ≤ s.rxlen.toNat) (hrec : Received s f)
    (h : firstError (contentChecks f s) = some e) : exec .parse s = .next (ended (some e) (recorded f s)) := by
  rw [← leftByRejection_of_received hrec]
  exact exec_of_frameChecks_fail (i := .parse) (acquisitionChecks_pass hen hfc hneed)
    (by rw [frameChecks, hrec.bytes, h])

/-- PARSE of a complete frame that passes every check decodes it. -/
theorem exec_parse_of_accepted {s : State} {f : List Byte} (hen : s.ctrl.en = true)
    (hfc : s.exp.fc ≠ .none) (hneed : rxNeed s ≤ s.rxlen.toNat) (hrec : Received s f)
    (h : firstError (contentChecks f s) = none) :
    exec .parse s = .next (ended none (leftBySuccess .parse s)) :=
  exec_of_checks_pass (i := .parse) (acquisitionChecks_pass hen hfc hneed) (by rw [frameChecks, hrec.bytes, h])

/-- Settles O45: the checks of the frame decide in their order. -/
theorem parseChecksTheFrame : Obligations.ParseChecksTheFrame := by
  intro s f hen hfc hneed hrec
  refine ⟨fun (h0 : byteAt f 0 ≠ _) => ?_, fun (h0 : byteAt f 0 = _) (h1 : byteAt f 1 ≠ _) => ?_,
    fun (h0 : byteAt f 0 = _) (h1 : byteAt f 1 = _) hread (h2 : (byteAt f 2).toNat ≠ _) => ?_,
    fun (h0 : byteAt f 0 = _) (h1 : byteAt f 1 = _) (h2 : _ → (byteAt f 2).toNat = _) hcrc => ?_⟩ <;>
    refine exec_parse_of_rejected hen hfc hneed hrec ?_
  · simp [contentChecks, firstError, h0]
  · simp [contentChecks, firstError, h0, h1]
  · simp [contentChecks, firstError, h0, h1, hread, h2]
  · rw [computedCrc_eq, carriedCrc_eq] at hcrc
    simpa [contentChecks, firstError, h0, h1, hcrc] using h2

/-! ## The data of an accepted frame (R126, R127) -/

/-- Two bytes joined, in numbers. -/
theorem beHalf_eq_ofNat (hi lo : Byte) : beHalf hi lo = BitVec.ofNat 16 (256 * hi.toNat + lo.toNat) := by
  apply BitVec.eq_of_toNat_eq
  rw [beHalf, app_toNat, BitVec.toNat_ofNat]
  omega

/-- Two bytes joined in a 32-bit register, in numbers. -/
theorem setWidth_beHalf (hi lo : Byte) :
    (beHalf hi lo).setWidth 32 = BitVec.ofNat 32 (256 * hi.toNat + lo.toNat) := by
  apply BitVec.eq_of_toNat_eq
  rw [beHalf, BitVec.toNat_setWidth, app_toNat, BitVec.toNat_ofNat]
  omega

/-- decode_read reads QTY words, however long the frame is. -/
theorem length_readWords (f : List Byte) (q : Nat) : (readWords f q).length = q := by simp [readWords]

/-- The k-th word of a 0x03 response, in numbers. -/
theorem getElem_readWords (f : List Byte) {q k : Nat} (hk : k < (readWords f q).length) :
    (readWords f q)[k] =
      BitVec.ofNat 16 (256 * (f.getD (3 + 2 * k) 0#8).toNat + (f.getD (4 + 2 * k) 0#8).toNat) := by
  simp only [readWords, List.getElem_map, List.getElem_range, byteAt, beHalf_eq_ofNat]

/-- Settles O46: the invariant bounds QTY, so the decoded words fit into RDAT. -/
theorem parseDecodesAReadResponse : Obligations.ParseDecodesAReadResponse := by
  intro s f hinv hen hread hneed hrec h0 h1 h2 hcrc
  have hcode : f.getD 1 0#8 = s.exp.fc.code := by rw [h1, hread]; rfl
  have hparse := exec_parse_of_accepted hen (by simp [hread]) hneed hrec
    (firstError_contentChecks_eq_none.2 ⟨h0, hcode, fun _ => h2, hcrc⟩)
  have hlen := length_readWords f s.exp.qty.toNat
  have hfits : (readWords f s.exp.qty.toNat).length ≤ 30 := hlen.symm ▸ (hinv.qty (.inl hread)).2
  refine ⟨storeAt s.rdat 0 (readWords f s.exp.qty.toNat), ?_, fun k hk => ?_, ?_⟩
  · rw [hparse, leftBySuccess_parse_of_read hread, leftByRejection_of_received hrec, hrec.bytes]
    rfl
  · rw [StartsWith.storeAt s.rdat _ hfits k (hlen.symm ▸ hk), getElem_readWords]
  · simpa only [hlen] using sameFrom_storeAt_zero s.rdat (readWords f s.exp.qty.toNat)

/-- Settles O47: an echo has no byte count to check, and nothing of it is compared with the request. -/
theorem parseDecodesAnEcho : Obligations.ParseDecodesAnEcho := by
  intro s f hen hfc hlen hrec h0 hcrc
  have hcode : f.getD 1 0#8 = s.exp.fc.code := by
    obtain ⟨hfc, h1⟩ | ⟨hfc, h1⟩ := hfc <;> rw [hfc, h1] <;> rfl
  have hecho : s.exp.fc = .write1 ∨ s.exp.fc = .writeN := hfc.imp And.left And.left
  have hread : s.exp.fc ≠ .read := by rcases hecho with h | h <;> simp [h]
  have hsome : s.exp.fc ≠ .none := by rcases hecho with h | h <;> simp [h]
  rw [exec_parse_of_accepted hen hsome (rxNeed_echo hecho ▸ hlen) hrec
      (firstError_contentChecks_eq_none.2 ⟨h0, hcode, (absurd · hread), hcrc⟩),
    leftBySuccess_parse_of_ne_read hread, leftByRejection_of_received hrec, hrec.bytes, decodeEcho, setWidth_beHalf,
    setWidth_beHalf]
  rfl

/-! ## Soundness and repetition of PARSE (R128) -/

/-- CRCOK after a successful PARSE is the frame's CRC check. -/
theorem crcok_leftBySuccess_parse (s : State) : (leftBySuccess .parse s).status.crcok = frameOk (rxBytes s) := by
  by_cases hfc : s.exp.fc = .read
  · rw [leftBySuccess_parse_of_read hfc]
    rfl
  · rw [leftBySuccess_parse_of_ne_read hfc]
    rfl

/-- Settles O48: PARSE ends with no error only when both lists of checks passed. -/
theorem acceptedResponseMatchesTheExpectation : Obligations.AcceptedResponseMatchesTheExpectation := by
  intro s t ht herr
  obtain ⟨e, -, rfl⟩ | ⟨e, -, -, rfl⟩ | ⟨hentry, hframe, rfl⟩ := exec_cases ht
  · exact absurd herr nofun
  · exact absurd herr nofun
  · obtain ⟨hen, hfc, hneed⟩ := firstError_acquisitionChecks_eq_none.1 hentry
    obtain ⟨-, -, -, hcrc⟩ := firstError_contentChecks_eq_none.1 hframe
    refine ⟨hen, hfc, hneed, ?_, fun f hrec => ?_⟩
    · rw [computedCrc_eq, carriedCrc_eq] at hcrc
      rw [finish_status, crcok_leftBySuccess_parse, frameOk, hcrc, beq_self_eq_true]
    · rw [frameChecks, hrec.bytes] at hframe
      exact firstError_contentChecks_eq_none.1 hframe

/-- Recording a frame again writes the same values over themselves. -/
theorem record_idem (r : Option CmdError) (f : List Byte) (s : State) :
    finish r (record f (clearCrcok (finish r (record f (clearCrcok s))))) = finish r (record f (clearCrcok s)) := by
  simp only [finish, record, clearCrcok]

/-- Recording and decoding a 0x03 response again writes the same values over themselves. -/
theorem decodeRead_record_idem (f : List Byte) (s : State) :
    finish none (decodeRead f (record f (clearCrcok (finish none (decodeRead f (record f (clearCrcok s))))))) =
      finish none (decodeRead f (record f (clearCrcok s))) := by
  simp only [finish, decodeRead, record, clearCrcok, storeAt_storeAt]

/-- Recording and decoding an echo again writes the same values over themselves. -/
theorem decodeEcho_record_idem (f : List Byte) (s : State) :
    finish none (decodeEcho f (record f (clearCrcok (finish none (decodeEcho f (record f (clearCrcok s))))))) =
      finish none (decodeEcho f (record f (clearCrcok s))) := by
  simp only [finish, decodeEcho, record, clearCrcok]

/-- A successful PARSE after a successful PARSE leaves the same state. -/
theorem leftBySuccess_parse_idem (s : State) :
    finish none (leftBySuccess .parse (finish none (leftBySuccess .parse s))) = finish none (leftBySuccess .parse s) := by
  by_cases hfc : s.exp.fc = .read
  · rw [leftBySuccess_parse_of_read hfc,
      leftBySuccess_parse_of_read (s := finish none (decodeRead (rxBytes s) (leftByRejection s))) hfc]
    exact decodeRead_record_idem (rxBytes s) s
  · rw [leftBySuccess_parse_of_ne_read hfc,
      leftBySuccess_parse_of_ne_read (s := finish none (decodeEcho (rxBytes s) (leftByRejection s))) hfc]
    exact decodeEcho_record_idem (rxBytes s) s

/-- Settles O49: PARSE keeps what its checks read, so the second PARSE ends in the way the first did. -/
theorem parseCanBeRepeated : Obligations.ParseCanBeRepeated := by
  intro s t ht
  obtain ⟨-, hctrl, -, -, -, -, hrxbuf, -, -, -, -, -, -, htx, hrxlen, -, -⟩ := frameOfEveryCommand .parse s t ht
  obtain ⟨-, -, hexp⟩ := htx (by simp)
  have hlen := hrxlen (by simp)
  have hentry : entryChecks .parse t = entryChecks .parse s := acquisitionChecks_congr hctrl hexp hlen hrxbuf
  have hframe : frameChecks .parse t = frameChecks .parse s := by
    rw [frameChecks, rxBytes_congr hrxbuf hlen, contentChecks_congr hexp, frameChecks]
  obtain ⟨e, he, heq⟩ | ⟨e, he, hf, heq⟩ | ⟨he, hf, heq⟩ := exec_cases ht
  · rw [exec_of_entryChecks_fail (hentry ▸ he), heq]
    rfl
  · rw [exec_of_frameChecks_fail (hentry ▸ he) (hframe ▸ hf), heq]
    exact congrArg _ (record_idem (some e) (rxBytes s) s)
  · rw [exec_of_checks_pass (hentry ▸ he) (hframe ▸ hf), heq, leftBySuccess_parse_idem]

/-! ## PARSE_RAW (R130) -/

/-- Settles O50: the length decides first, then the CRC. -/
theorem parseRawChecksOnlyTheCrc : Obligations.ParseRawChecksOnlyTheCrc := by
  refine ⟨rfl, fun s => ⟨fun hshort => ?_, fun f hrec hlen => ?_⟩⟩
  · exact exec_of_entryChecks_fail (i := .parseRaw) (firstError_singleton_eq_some.2 ⟨by simpa using hshort, rfl⟩)
  · have hentry : firstError (entryChecks .parseRaw s) = none :=
      firstError_singleton_eq_none.2 (by simpa [← hrec.1] using hlen)
    rw [← leftByRejection_of_received hrec, computedCrc_eq, carriedCrc_eq, ← hrec.bytes]
    refine ⟨fun hcrc => ?_, fun hcrc => ?_⟩
    · exact exec_of_frameChecks_fail hentry (firstError_singleton_eq_some.2 ⟨by simpa using hcrc, rfl⟩)
    · exact exec_of_checks_pass (i := .parseRaw) hentry (firstError_singleton_eq_none.2 (by simpa using hcrc))

/-! ## RXNEED and the push (R120, R121) -/

/-- RXNEED fits into its register. -/
theorem toNat_hostRead_rxneed (s : State) : (hostRead 0x030#13 s).toNat = rxNeed s := by
  have hle := (rxNeed_bounds s).2
  rw [hostRead_off (r := .rxneed) rfl, readReg, BitVec.toNat_ofNat]
  omega

/-- Settles O19, by R120's cases. -/
theorem rxneedFollowsTheExpectation : Obligations.RxneedFollowsTheExpectation := by
  refine ⟨fun s => ?_, fun s t hexp hlen hbuf => BitVec.eq_of_toNat_eq ?_⟩
  · rw [toNat_hostRead_rxneed]
    exact ⟨rxNeed_header, rxNeed_body, rxNeed_echo, rxNeed_noExp, rxNeed_bounds s⟩
  · rw [toNat_hostRead_rxneed, toNat_hostRead_rxneed, rxNeed_congr (by rw [hexp]) hlen hbuf]

/-- A push at RXNEED or beyond only sets RXOVF. -/
theorem pushByte_of_le {s : State} (h : rxNeed s ≤ s.rxlen.toNat) (b : Byte) :
    pushByte b s = { s with status := { s.status with rxovf := true } } := if_neg (Nat.not_lt.2 h)

/-- Settles O20: an idle block takes the push below RXNEED only, a busy one takes no write. -/
theorem pushStoresOnlyBelowRxneed : Obligations.PushStoresOnlyBelowRxneed := by
  intro s v
  have hpush (hs : s.eng = .idle) : hostWrite 0x02C#13 v s = pushByte (BitVec.ofNat 8 v.toNat) s := by
    rw [hostWrite_at hs (r := .rxdata) rfl nofun, writeReg, low8_eq_ofNat]
  refine ⟨fun hs hlt => ?_, fun hs hle => ?_, fun hs => hostWrite_of_busy (by decide) hs v⟩
  · have hneed := (rxNeed_bounds s).2
    have hsucc : s.rxlen + 1#9 = BitVec.ofNat 9 (s.rxlen.toNat + 1) := by
      rw [BitVec.ofNat_add, BitVec.ofNat_toNat, BitVec.setWidth_eq]
    refine ⟨s.rxbuf.setIfInBounds s.rxlen.toNat (BitVec.ofNat 8 v.toNat), ?_, ?_, fun i hi => ?_⟩
    · rw [hpush hs, pushByte_of_lt hlt, hsucc]
    · exact Vector.getElem?_setIfInBounds_self_of_lt (by omega)
    · exact Vector.getElem?_setIfInBounds_ne hi.symm
  · rw [hpush hs, pushByte_of_le hle]

end Sys2Proof.Machine

/-!
SUPPORT. Errors, the interrupt and the platform (60_exceptions.md R140, R150 and R159): no step stops the block, irq follows
DONE and its mask, and an idle engine waits for the next access.
-/

namespace Sys2Proof.Machine

/-! ## Every run goes on (R140) -/

/-- No step stops: a reset cycle and a host cycle answer a next state, and every completion ends in `finish`. -/
theorem exists_step_eq_next (s : State) : ∃ t, step s = .next t := by
  obtain ⟨-, heq⟩ | ⟨-, -, heq⟩ | ⟨-, -, heq⟩ := step_cases s
  · exact ⟨resetCycle s, heq⟩
  · obtain ⟨r, u, hfinish⟩ := exists_completeCommand_eq_finish s
    exact ⟨finish r u, heq.trans hfinish⟩
  · exact ⟨hostCycle s, heq⟩

/-- Settles O5, by induction on the number of steps. -/
theorem machineNeverStops : Obligations.MachineNeverStops := by
  intro k
  induction k with
  | zero => exact fun s => ⟨s, (runsTo_zero s s).2 rfl⟩
  | succ k ih =>
    intro s
    obtain ⟨t, hstep⟩ := exists_step_eq_next s
    obtain ⟨u, hrun⟩ := ih t
    exact ⟨u, (runsTo_succ hstep k u).2 hrun⟩

/-! ## The idle engine (R159) -/

/-- An idle engine has no wait that a cycle could shorten. -/
theorem tick_of_idle {s : State} (hs : s.eng = .idle) : tick s = s := by
  simp only [tick, hs]

/-- An idle engine lets the outside world have its cycle. -/
theorem step_of_idle {s : State} (hs : s.eng = .idle) (hreset : resetPending s = false) :
    step s = .next (hostCycle s) := by
  simp [step, hs, hreset]

/-- With no cycle left the host is idle, and so is the engine's tick. -/
theorem hostCycle_of_no_inputs {s : State} (hi : s.inputs = []) : hostCycle s = tick s := by
  simp only [hostCycle, hi]

/-- A cycle without an access is taken off the list, and the engine's tick passes. -/
theorem hostCycle_of_no_access {s : State} {inp : PortIn} {rest : List PortIn} (hi : s.inputs = inp :: rest)
    (haccess : inp.access = none) : hostCycle s = tick { s with inputs := rest } := by
  simp only [hostCycle, hi, haccess]

/-- Settles O11: the step is a host cycle without an access, and the tick of an idle engine does nothing. -/
theorem idleEngineChangesNothing : Obligations.IdleEngineChangesNothing := by
  intro s hs
  refine ⟨fun hi => ?_, fun rest hi => ?_⟩
  · have hreset : resetPending s = false := by simp [resetPending, hi]
    rw [step_of_idle hs hreset, hostCycle_of_no_inputs hi, tick_of_idle hs]
  · have hreset : resetPending s = false := by simp [resetPending, hi]
    rw [step_of_idle hs hreset, hostCycle_of_no_access hi rfl, tick_of_idle (s := { s with inputs := rest }) hs]

/-! ## The interrupt line (R150) -/

/-- While DONE = 0 no interrupt is requested. -/
theorem irq_of_not_done {s : State} (h : s.status.done = false) : s.irq = false := by
  rw [State.irq, h, Bool.and_false]

/-- While DONE = 1 the mask decides. -/
theorem irq_of_done {s : State} (h : s.status.done = true) : s.irq = s.ctrl.irqen := by
  rw [State.irq, h, Bool.and_true]

/-- Every command leaves DONE = 1. -/
theorem done_of_exec {i : Instr} {s t : State} (ht : exec i s = .next t) : t.status.done = true := by
  obtain ⟨u, hu, hdone, -⟩ := everyCommandCompletes i s
  obtain rfl : t = u := Host.Outcome.next.inj (ht.symm.trans hu)
  exact hdone

/-- Settles O21: a completion sets DONE and keeps CTRL, and each of the other three events leaves DONE = 0. -/
theorem irqFollowsDoneAndMask : Obligations.IrqFollowsDoneAndMask := by
  refine ⟨fun _ => rfl, fun i s t ht => ?_, fun s v hv => ?_, fun s w hs => ?_, irq_of_not_done rfl⟩
  · obtain ⟨-, hctrl, -⟩ := frameOfEveryCommand i s t ht
    rw [irq_of_done (done_of_exec ht), hctrl]
  · rw [hostWrite_status rfl]
    exact irq_of_not_done (by simp [hv])
  · rw [hostWrite_at (r := .cmd) hs rfl nofun]
    exact irq_of_not_done rfl

end Sys2Proof.Machine

/-!
SUPPORT. Reset and hazards (70_reset_and_hazards.md R160, R161 and R166): reset goes before everything else a step can be,
and a busy block drops every legal write but one to STATUS.
-/

namespace Sys2Proof.Machine

/-! ## A cycle with rst asserted (R160, R161) -/

/-- Reset goes first, whatever the engine was about to do. -/
theorem step_of_resetPending {s : State} (h : resetPending s = true) : step s = .next (resetCycle s) := by
  rw [step, if_pos h]

/-- A cycle that asserts rst is a step to the reset values, with the answer R160 gives to its access. -/
theorem step_of_reset_input {s : State} {inp : PortIn} {rest : List PortIn} (hi : s.inputs = inp :: rest)
    (hrst : inp.rst = true) :
    step s = .next { State.reset with inputs := rest, resp := answerInReset inp.access, draws := s.draws } := by
  have hpending : resetPending s = true := by simp only [resetPending, hi, hrst]
  rw [step_of_resetPending hpending]
  simp only [resetCycle, hi]

/-- A read while rst is asserted answers 0 with herr = 0, an illegal one too (log entry 10). -/
theorem answerInReset_read {a : Access} (hread : a.hwrite = false) :
    answerInReset (some a) = some (.read 0#32 false) := by
  simp [answerInReset, hread]

/-- Settles O9: the step is the reset cycle, its answer is R160's, and with DONE = 0 no interrupt is requested. -/
theorem resetCycleResetsEverything : Obligations.ResetCycleResetsEverything := by
  intro s inp rest hi hrst
  refine ⟨answerInReset inp.access, s.draws, step_of_reset_input hi hrst, fun a haccess hread => ?_, irq_of_not_done rfl⟩
  rw [haccess, answerInReset_read hread]

/-! ## A write while BUSY (R166) -/

/-- Settles O17: the engine still executes when the access comes, so its HostWrite only sets HAZ. -/
theorem writesWhileBusyAreDropped : Obligations.WritesWhileBusyAreDropped := by
  intro s s' a h hbusy hsize hal hw hoff
  have hbusy' : s'.eng ≠ .idle := mt h.idle_iff.1 hbusy
  rw [h.step_eq, hostAccess_write hsize hal hw, hostWrite_of_busy hoff hbusy']

end Sys2Proof.Machine
